-- ==== Sys2Proof/Word.lean ====
section
/-! DEFINITION. The words of the block: a buffer byte, a host register, an access word, and the values whose width is a
parameter of 00_scope.md rule R3 (`CW`, `AW`, `LW`). Each of these stands in a host register, so 16 bits hold it
whatever the parameter; the operations that store one truncate it to its width (log 7). -/

namespace Sys2Proof

/-- A byte of the buffer space, and every 8-bit element of 10_state.md. -/
abbrev Byte := BitVec 8

/-- A host register (R41): 16 bits. -/
abbrev Reg := BitVec 16

/-- A buffer-space address: the low `AW` bits of a TPTR value (R3, R46, R64). -/
abbrev BufAddr := BitVec 16

/-- A transfer length or a cursor: the low `LW` bits of a TLEN value (R3, R11, R64). -/
abbrev BufLen := BitVec 16

/-- The second counter or its operand: the low `CW` bits of a TCOUNT value (R3, R21, R24, R65). -/
abbrev Count := BitVec 16

/-- `v` truncated to `w` bits, as a register value (00_scope.md section 5, R67). -/
def fit (w : Nat) (v : BitVec 16) : BitVec 16 := BitVec.ofNat 16 (v.toNat % 2 ^ w)

/-- The access word on the host port (R60): 32 bits. -/
abbrev AccessWord := BitVec 32

end Sys2Proof
end

