-- ==== Sys2Proof/Config.lean ====
section
/-! DEFINITION. What an implementation fixes (00_scope.md rule R3), the inputs of one cycle (R4), and the free values:
constants with no body, of which no proof can use a value. -/

namespace Sys2Proof

/-- The build parameters of the block (R3). A state carries them in its field `par`, which no step writes, so that a
statement about every state covers every value of them (log 6). -/
structure Params where
  /-- `QDIV`: `clk` cycles per quarter of an SCL period, at least 1. OPEN. -/
  qdiv : Nat
  /-- `TICK_DIV`: timebase pulses per tick, at least 1. Decided: 8. -/
  tickDiv : Nat
  /-- `LONG_TICKS[ADD]`, 2 to 255. Source: 32. -/
  longAdd : Byte
  /-- `LONG_TICKS[SET]`, 2 to 255. Source: 64. -/
  longSet : Byte
  /-- `ACTIVE_LEVEL[ADD]`: the line level that reads as pressed. OPEN. -/
  activeLevelAdd : Bool
  /-- `ACTIVE_LEVEL[SET]`. OPEN. -/
  activeLevelSet : Bool
  /-- `CW`: width of the second counter. Decided: 8. At most the 16 bits of TCOUNT (R65; log 7). -/
  cw : Fin 17
  /-- `AW`: width of a buffer-space address. Decided: 16. At most the 16 bits of TPTR (R64; log 7). -/
  aw : Fin 17
  /-- `LW`: width of the transfer length and of the cursor. Decided: 8. At most the 16 bits of TLEN (R64; log 7). -/
  lw : Fin 17
deriving DecidableEq, Repr, Inhabited

/-- The ranges R3 gives its parameters; a width is at least 1 (log 7). -/
def Params.legal (p : Params) : Bool :=
  decide (1 ≤ p.qdiv) && decide (1 ≤ p.tickDiv) && decide (2 ≤ p.longAdd.toNat) && decide (2 ≤ p.longSet.toNat)
    && decide (1 ≤ p.cw.val) && decide (1 ≤ p.aw.val) && decide (1 ≤ p.lw.val)

/-- The inputs of one `clk` cycle (R4): the ports of the block, the environment's choice of whether the handler is
scheduled in this cycle (R6 stage 4, R82), and what the host's own stores put into the buffer space (R42). -/
structure Stimulus where
  /-- `rst`: reset in this cycle (R230). -/
  rst : Bool
  /-- `tb_en`: timebase pulse (R140). -/
  tbEn : Bool
  /-- `pd`: power-down gate (R222). -/
  pd : Bool
  /-- `ext_sda`: the AND of all other drivers of SDA (R110). -/
  extSda : Bool
  /-- `ext_scl`: the AND of all other drivers of SCL (R110). -/
  extScl : Bool
  /-- `btn_in[ADD]`: the raw line. -/
  btnAdd : Bool
  /-- `btn_in[SET]`: the raw line. -/
  btnSet : Bool
  /-- The host's access word, at most one a cycle (R60). -/
  access : Option AccessWord
  /-- Whether the handler is scheduled in this cycle: the delay of R82 is free (log 3). -/
  handlerGo : Bool
  /-- The host's own stores into the buffer space, oldest first (R42, R241; log 5). -/
  bufWrites : List (BufAddr × Byte)
deriving DecidableEq, Repr, Inhabited

/-- The inputs of a cycle in which nothing happens: both lines free, no pulse, no access. -/
def Stimulus.quiet : Stimulus :=
  { rst := false, tbEn := false, pd := false, extSda := true, extScl := true, btnAdd := false, btnSet := false,
    access := none, handlerGo := false, bufWrites := [] }

/-- `QDIV` less one: OPEN, so a constant nothing is known of (R3). -/
opaque Config.qdivLessOne : Nat
/-- `ACTIVE_LEVEL[ADD]`: OPEN (R3, R161). -/
opaque Config.activeLevelAdd : Bool
/-- `ACTIVE_LEVEL[SET]`: OPEN (R3, R161). -/
opaque Config.activeLevelSet : Bool
/-- `F_CLK`: OPEN; no rule reads it (R3). -/
opaque Config.fClk : Nat
/-- `BASE`: OPEN; no rule reads it (R3, R44). -/
opaque Config.base : Nat
/-- `F_TB`: timebase pulses a second. Decided: 256; no rule of the block reads it (R3, R251). -/
def Config.fTb : Nat := 256

/-- The parameters of the machine that comes out of reset: OPEN ones unknown, the others at R3's values. -/
def Config.params : Params :=
  { qdiv := Config.qdivLessOne + 1, tickDiv := 8, longAdd := 32, longSet := 64,
    activeLevelAdd := Config.activeLevelAdd, activeLevelSet := Config.activeLevelSet, cw := 8, aw := 16, lw := 8 }

/-- The inputs of cycle `n` where no script lays them down: free (log 2). -/
opaque Config.stimulus : Nat → Stimulus

/-- What a byte of the buffer space reads as that nothing has written: any value (R42, 93 V9; log 4). -/
opaque Config.bufferByte : BufAddr → Byte

-- The host beside the block ----------------------------------------------------------------------------------------

/-- The values of `HOST_ORDER` (R3, R191). -/
inductive HostOrder where
  | addFirst | setFirst
deriving DecidableEq, Repr, Inhabited

/-- The display's blink setting (R180). -/
inductive Blink where
  | off | oneHz | twoHz
deriving DecidableEq, Repr, Inhabited

/-- The host-side parameters of R3, and what the spec leaves to the host (log 21, log 26). -/
structure HostParams where
  /-- `MAX_SECONDS`: the bound of `remaining` and `preset`. Source: 5999. -/
  maxSeconds : Nat
  /-- `ADD_SHORT`. Source: 10. -/
  addShort : Nat
  /-- `ADD_LONG`. Source: 60. -/
  addLong : Nat
  /-- `DISPLAY_ADDR`. OPEN (R190). -/
  displayAddr : BitVec 7
  /-- `HOST_ORDER`. OPEN (R191). -/
  order : HostOrder
  /-- Which handler runs first when both requests are up: the host's choice (R210; log 26). -/
  secondFirst : Bool
  /-- Where the host keeps the bytes of its display transfers in the buffer space: the host's choice (R177; log 26). -/
  displayBuffer : BufAddr
  /-- Ticks in half a period of the colon's blinking (R190; how it blinks is the host's, N33; log 26). -/
  colonTicks : Nat
deriving DecidableEq, Repr, Inhabited

/-- `DISPLAY_ADDR`: OPEN (R3, R190). -/
opaque Config.displayAddr : BitVec 7
/-- `HOST_ORDER`: OPEN (R3, R191). -/
opaque Config.hostOrder : HostOrder
/-- Left to the host (R210; log 26). -/
opaque Config.secondFirst : Bool
/-- Left to the host (R177; log 26). -/
opaque Config.displayBuffer : BufAddr
/-- The five bytes of a display update for four digits and the colon: the excluded collaborators' (00_scope.md section 3,
R190; log 21), so free. -/
opaque Config.displayByte : Nat → Nat → Nat → Nat → Bool → Fin 5 → Byte
/-- The one byte of a blink command: the excluded collaborators' (00_scope.md section 3, R190; log 21), so free. -/
opaque Config.blinkByte : Blink → Byte

/-- The host's parameters: OPEN ones unknown, the others at R3's values; the colon changes every half second of
`F_TB / TICK_DIV` = 32 ticks (R251). -/
def Config.hostParams : HostParams :=
  { maxSeconds := 5999, addShort := 10, addLong := 60, displayAddr := Config.displayAddr, order := Config.hostOrder
    secondFirst := Config.secondFirst, displayBuffer := Config.displayBuffer, colonTicks := Config.fTb / 8 / 2 }

end Sys2Proof
end

