-- ==== Sys2Proof/Syntax.lean ====
section
/-! DEFINITION. The names of the block's codes (30_encoding.md rules R68 to R73) and its operations: one constructor of
`Instr` for each of the 67 rows of spec/opcode_table.json (R77). -/

namespace Sys2Proof

/-- `state` (R69). -/
inductive SeqState where
  | idle | addressing | writing | reading | stopping
deriving DecidableEq, Repr, Inhabited

/-- `outcome` and `final` (R68). -/
inductive BusOutcome where
  | success | inProgress | arbitrationLost | addressNack
deriving DecidableEq, Repr, Inhabited

/-- `ph` (R72). -/
inductive Phase where
  | idle | st0 | st1 | st2 | q1 | q2 | q3 | q4 | hold | sp0 | sp1 | sp2 | sp3
deriving DecidableEq, Repr, Inhabited

/-- `unit` (R72). -/
inductive CellUnit where
  | addr | tx | rx | ack | nack
deriving DecidableEq, Repr, Inhabited

/-- The two buttons (R25). -/
inductive Button where
  | add | set
deriving DecidableEq, Repr, Inhabited

/-- `bev[b]` (R73); `released` carries `after_long`. -/
inductive ButtonEvent where
  | none | pressed | released (afterLong : Bool) | longPress
deriving DecidableEq, Repr, Inhabited

/-- The arms of the handler step, one for each `EVENT` row of the table (R93). -/
inductive Arm where
  | spurious (e : BitVec 4)
  | faultArbLost | faultBusError
  | nackAddr | nackData
  | stopDone
  | writeNextAddrAck | writeNextDataAck
  | writeDoneAddrAck | writeDoneDataAck
  | readFirst | readByte
  | ignored (e : BitVec 4)
deriving DecidableEq, Repr

/-- The one-bit conditions that select the `SIGNAL` rows (R77). -/
inductive Signal where
  | clockEdge | timebase | tickDue | secondRunning | sample (b : Button) | handlerReady
deriving DecidableEq, Repr

/-- The operations of the block, one constructor for each row of the opcode table (R77). -/
inductive Instr where
  -- host reads (R45, R61 to R66)
  | rdCmd | rdStatus | rdTreq | rdTptr | rdTlen | rdTidx | rdTcount | rdTstat | rdTcnt | rdBev | rdBcntAdd | rdBcntSet
  | rdBtn | rdRsvd13 | rdRsvd14 | rdRsvd15
  -- host commands (R62)
  | cmdNop | cmdSubmit | cmdTStart | cmdTStop | cmdAckTick | cmdAckSec
  | cmdReserved67 (op : BitVec 4) | cmdReserved815 (op : BitVec 4)
  -- host writes (R45, R64, R65)
  | wrStatus (data : Reg) | wrTreq (data : Reg) | wrTptr (data : Reg) | wrTlen (data : Reg) | wrTidx (data : Reg)
  | wrTcount (data : Reg) | wrTstat (data : Reg) | wrTcnt (data : Reg) | wrBev (data : Reg) | wrBcntAdd (data : Reg)
  | wrBcntSet (data : Reg) | wrBtn (data : Reg) | wrRsvd13 (data : Reg) | wrRsvd14 (data : Reg) | wrRsvd15 (data : Reg)
  -- handler arms (R84 to R92)
  | hSpurious (e : BitVec 4) | hFaultEvArbLost | hFaultEvBusError | hNackEvAddrNack | hNackEvDataNack | hStopDone
  | hWriteNextEvAddrAck | hWriteNextEvDataAck | hWriteDoneEvAddrAck | hWriteDoneEvDataAck | hReadFirst | hReadByte
  | hIgnored (e : BitVec 4)
  -- line actions (R114, R115, R131 to R136)
  | aStartAddr | aSend | aRecv | aAckRecv | aNackStop | aStop | aNone | aReserved7
  -- periodic steps (R93, R130, R140 to R142, R162, R163)
  | lineStep | tbStep | tick | secStep | bSamplePressed (b : Button) | bSampleReleased (b : Button) | handler
deriving DecidableEq, Repr

end Sys2Proof
end

