-- ==== Sys2Proof/WellFormed.lean ====
section
/-! DEFINITION. Which terms of `Instr` are operations of the table: the operand of a reserved command row lies in the
row's range (R62, R77), and an event code that always selects an earlier arm is none of `H_IGNORED` (R92, R93). -/

namespace Sys2Proof

/-- The checks of an operation's operands. Every other operand has exactly the width of its field. -/
def Instr.wellFormed : Instr → Bool
  | .cmdReserved67 op => decide (6 ≤ op.toNat) && decide (op.toNat ≤ 7)
  | .cmdReserved815 op => decide (8 ≤ op.toNat)
  | .hIgnored e => decide (e ≠ 6) && decide (e ≠ 7)
  | .rdCmd | .rdStatus | .rdTreq | .rdTptr | .rdTlen | .rdTidx | .rdTcount | .rdTstat | .rdTcnt | .rdBev | .rdBcntAdd
  | .rdBcntSet | .rdBtn | .rdRsvd13 | .rdRsvd14 | .rdRsvd15
  | .cmdNop | .cmdSubmit | .cmdTStart | .cmdTStop | .cmdAckTick | .cmdAckSec
  | .wrStatus _ | .wrTreq _ | .wrTptr _ | .wrTlen _ | .wrTidx _ | .wrTcount _ | .wrTstat _ | .wrTcnt _ | .wrBev _
  | .wrBcntAdd _ | .wrBcntSet _ | .wrBtn _ | .wrRsvd13 _ | .wrRsvd14 _ | .wrRsvd15 _
  | .hSpurious _ | .hFaultEvArbLost | .hFaultEvBusError | .hNackEvAddrNack | .hNackEvDataNack | .hStopDone
  | .hWriteNextEvAddrAck | .hWriteNextEvDataAck | .hWriteDoneEvAddrAck | .hWriteDoneEvDataAck | .hReadFirst
  | .hReadByte
  | .aStartAddr | .aSend | .aRecv | .aAckRecv | .aNackStop | .aStop | .aNone | .aReserved7
  | .lineStep | .tbStep | .tick | .secStep | .bSamplePressed _ | .bSampleReleased _ | .handler => true

end Sys2Proof
end

