-- ==== Sys2Proof/Decode.lean ====
section
/-! DEFINITION. Codes, decoder and encoder of the operations (30_encoding.md). An operation is selected in one of five
ways (R77): an access word on the host port, the pending event code with the sequencer's state (R93), the action code in
the latch (R71), or a one-bit condition. -/

namespace Sys2Proof

-- Codes of the enumerated elements --------------------------------------------------------------------------------

/-- R69. -/
def SeqState.code : SeqState → BitVec 3
  | .idle => 0 | .addressing => 1 | .writing => 2 | .reading => 3 | .stopping => 4

/-- R68. -/
def BusOutcome.code : BusOutcome → BitVec 2
  | .success => 0 | .inProgress => 1 | .arbitrationLost => 2 | .addressNack => 3

/-- R72. -/
def Phase.code : Phase → BitVec 4
  | .idle => 0 | .st0 => 1 | .st1 => 2 | .st2 => 3 | .q1 => 4 | .q2 => 5 | .q3 => 6 | .q4 => 7 | .hold => 8 | .sp0 => 9
  | .sp1 => 10 | .sp2 => 11 | .sp3 => 12

/-- R72. -/
def CellUnit.code : CellUnit → BitVec 3
  | .addr => 0 | .tx => 1 | .rx => 2 | .ack => 3 | .nack => 4

/-- R73: bits 1:0 are the kind, bit 2 is `after_long`. -/
def ButtonEvent.code : ButtonEvent → BitVec 3
  | .none => 0 | .pressed => 1 | .released false => 2 | .longPress => 3 | .released true => 6

/-- `EV_NONE` (R70). -/
abbrev evNone : BitVec 4 := 0
/-- `EV_ADDR_ACK` (R70). -/
abbrev evAddrAck : BitVec 4 := 1
/-- `EV_ADDR_NACK` (R70). -/
abbrev evAddrNack : BitVec 4 := 2
/-- `EV_DATA_ACK` (R70). -/
abbrev evDataAck : BitVec 4 := 3
/-- `EV_DATA_NACK` (R70). -/
abbrev evDataNack : BitVec 4 := 4
/-- `EV_DATA_RCVD` (R70). -/
abbrev evDataRcvd : BitVec 4 := 5
/-- `EV_ARB_LOST` (R70). -/
abbrev evArbLost : BitVec 4 := 6
/-- `EV_BUS_ERROR` (R70). -/
abbrev evBusError : BitVec 4 := 7
/-- `EV_STOP_DONE` (R70). -/
abbrev evStopDone : BitVec 4 := 8

/-- `A_NONE` (R71). -/
abbrev actNone : BitVec 3 := 0
/-- `A_START_ADDR` (R71). -/
abbrev actStartAddr : BitVec 3 := 1
/-- `A_SEND` (R71). -/
abbrev actSend : BitVec 3 := 2
/-- `A_RECV` (R71). -/
abbrev actRecv : BitVec 3 := 3
/-- `A_ACK_RECV` (R71). -/
abbrev actAckRecv : BitVec 3 := 4
/-- `A_NACK_STOP` (R71). -/
abbrev actNackStop : BitVec 3 := 5
/-- `A_STOP` (R71). -/
abbrev actStop : BitVec 3 := 6
/-- The reserved action code (R71). -/
abbrev actReserved7 : BitVec 3 := 7

-- Access words ----------------------------------------------------------------------------------------------------

/-- Field `w`, bit 31 (R60): 1 is a write. -/
def accessIsWrite (w : AccessWord) : Bool := w.getLsbD 31
/-- Field `idx`, bits 19:16 (R60). -/
def accessIdx (w : AccessWord) : BitVec 4 := w.extractLsb' 16 4
/-- Field `data`, bits 15:0 (R60). -/
def accessData (w : AccessWord) : Reg := w.extractLsb' 0 16
/-- The opcode field of a write to CMD, bits 3:0 (R62). -/
def commandOpcode (data : Reg) : BitVec 4 := data.extractLsb' 0 4

/-- The read of each register index (R61); every index has a row. -/
def decodeRead (idx : BitVec 4) : Instr :=
  match idx.toNat with
  | 0 => .rdCmd | 1 => .rdStatus | 2 => .rdTreq | 3 => .rdTptr | 4 => .rdTlen | 5 => .rdTidx | 6 => .rdTcount
  | 7 => .rdTstat | 8 => .rdTcnt | 9 => .rdBev | 10 => .rdBcntAdd | 11 => .rdBcntSet | 12 => .rdBtn | 13 => .rdRsvd13
  | 14 => .rdRsvd14 | _ => .rdRsvd15

/-- The command a write to CMD performs (R62). -/
def decodeCommand (op : BitVec 4) : Instr :=
  match op.toNat with
  | 0 => .cmdNop | 1 => .cmdSubmit | 2 => .cmdTStart | 3 => .cmdTStop | 4 => .cmdAckTick | 5 => .cmdAckSec
  | 6 => .cmdReserved67 op | 7 => .cmdReserved67 op | _ => .cmdReserved815 op

/-- The write of each register index (R61, R62). -/
def decodeWrite (idx : BitVec 4) (data : Reg) : Instr :=
  match idx.toNat with
  | 0 => decodeCommand (commandOpcode data)
  | 1 => .wrStatus data | 2 => .wrTreq data | 3 => .wrTptr data | 4 => .wrTlen data | 5 => .wrTidx data
  | 6 => .wrTcount data | 7 => .wrTstat data | 8 => .wrTcnt data | 9 => .wrBev data | 10 => .wrBcntAdd data
  | 11 => .wrBcntSet data | 12 => .wrBtn data | 13 => .wrRsvd13 data | 14 => .wrRsvd14 data | _ => .wrRsvd15 data

/-- The operation of an access word (R60): bits 30:20 are ignored, and every word has one (R77). -/
def decodeAccess (w : AccessWord) : Instr :=
  if accessIsWrite w then decodeWrite (accessIdx w) (accessData w) else decodeRead (accessIdx w)

-- Handler arms ----------------------------------------------------------------------------------------------------

/-- What the choice of an arm reads beside the event code (R93). -/
structure ArmContext where
  bufValid : Bool
  state : SeqState
  dir : Bool
  idx : BufLen
  length : BufLen
deriving DecidableEq, Repr

/-- Arm selection, in the order of R93. A write-direction acknowledge with `idx > length`, which R12 excludes, meets
neither condition of R93's fifth test and goes to `H_IGNORED` (log 11). -/
def selectArm (e : BitVec 4) (c : ArmContext) : Arm :=
  if c.bufValid = false then .spurious e
  else if e = evArbLost then .faultArbLost
  else if e = evBusError then .faultBusError
  else if e = evAddrNack ∧ (c.state = .addressing ∨ c.state = .writing) then .nackAddr
  else if e = evDataNack ∧ (c.state = .addressing ∨ c.state = .writing) then .nackData
  else if e = evStopDone ∧ c.state = .stopping then .stopDone
  else if c.dir = false ∧ e = evAddrAck ∧ c.state = .addressing ∧ c.idx < c.length then .writeNextAddrAck
  else if c.dir = false ∧ e = evDataAck ∧ c.state = .writing ∧ c.idx < c.length then .writeNextDataAck
  else if c.dir = false ∧ e = evAddrAck ∧ c.state = .addressing ∧ c.idx = c.length then .writeDoneAddrAck
  else if c.dir = false ∧ e = evDataAck ∧ c.state = .writing ∧ c.idx = c.length then .writeDoneDataAck
  else if c.dir = true ∧ e = evAddrAck ∧ c.state = .addressing then .readFirst
  else if c.dir = true ∧ e = evDataRcvd ∧ c.state = .reading then .readByte
  else .ignored e

/-- The row of an arm. -/
def Arm.instr : Arm → Instr
  | .spurious e => .hSpurious e
  | .faultArbLost => .hFaultEvArbLost
  | .faultBusError => .hFaultEvBusError
  | .nackAddr => .hNackEvAddrNack
  | .nackData => .hNackEvDataNack
  | .stopDone => .hStopDone
  | .writeNextAddrAck => .hWriteNextEvAddrAck
  | .writeNextDataAck => .hWriteNextEvDataAck
  | .writeDoneAddrAck => .hWriteDoneEvAddrAck
  | .writeDoneDataAck => .hWriteDoneEvDataAck
  | .readFirst => .hReadFirst
  | .readByte => .hReadByte
  | .ignored e => .hIgnored e

-- Line actions and signals ----------------------------------------------------------------------------------------

/-- The line action of a code (R71). -/
def decodeAction (a : BitVec 3) : Instr :=
  match a.toNat with
  | 0 => .aNone | 1 => .aStartAddr | 2 => .aSend | 3 => .aRecv | 4 => .aAckRecv | 5 => .aNackStop | 6 => .aStop
  | _ => .aReserved7

/-- Why a selector word selects no operation. -/
inductive DecodeError where
  /-- The one-bit condition of a `SIGNAL` row is 0, so its step does not happen. -/
  | conditionIsZero (g : Signal)
deriving DecidableEq, Repr

/-- The step a one-bit condition selects (R77); only a sample has a row for the value 0. -/
def decodeSignal (g : Signal) (c : Bool) : Except DecodeError Instr :=
  match g, c with
  | .clockEdge, true => .ok .lineStep
  | .timebase, true => .ok .tbStep
  | .tickDue, true => .ok .tick
  | .secondRunning, true => .ok .secStep
  | .sample b, true => .ok (.bSamplePressed b)
  | .sample b, false => .ok (.bSampleReleased b)
  | .handlerReady, true => .ok .handler
  | .clockEdge, false => .error (.conditionIsZero .clockEdge)
  | .timebase, false => .error (.conditionIsZero .timebase)
  | .tickDue, false => .error (.conditionIsZero .tickDue)
  | .secondRunning, false => .error (.conditionIsZero .secondRunning)
  | .handlerReady, false => .error (.conditionIsZero .handlerReady)

/-- What selects one operation (R77): the five formats of the table (`ACCESS` and `ACCESS_CMD` share the access word). -/
inductive Selector where
  | access (w : AccessWord)
  | event (code : BitVec 4) (ctx : ArmContext)
  | action (code : BitVec 3)
  | signal (g : Signal) (c : Bool)
deriving DecidableEq, Repr

/-- The decoder, total on every selector. -/
def decode : Selector → Except DecodeError Instr
  | .access w => .ok (decodeAccess w)
  | .event e c => .ok (selectArm e c).instr
  | .action a => .ok (decodeAction a)
  | .signal g c => decodeSignal g c

/-- The instruction the decoder reads from the bits of a table row. The access word is the only encoding a host emits
(R75) and is presented whole, so it has no byte order (R48). The other rows' codes are no words of the port and are
shared between rows (event 1, action 1 and condition 1), so fewer bits than an access word's give none (log 18). -/
def decodeTableWord (nbits w : Nat) : Option Instr :=
  if nbits = 32 ∧ w < 2 ^ 32 then some (decodeAccess (BitVec.ofNat 32 w)) else none

-- Encoder ---------------------------------------------------------------------------------------------------------

/-- `RD idx` (R60): the ignored fields are written as 0. -/
def encodeRead (idx : BitVec 4) : AccessWord := 0#1 ++ 0#11 ++ idx ++ 0#16
/-- `WR idx, v` (R60). -/
def encodeWrite (idx : BitVec 4) (data : Reg) : AccessWord := 1#1 ++ 0#11 ++ idx ++ data
/-- `CMD op` (R62, R76). -/
def encodeCommand (op : BitVec 4) : AccessWord := encodeWrite 0 (0#12 ++ op)

/-- The selector of an operation. An arm's is its row's event code with a context in which its row's `when` holds. -/
def encode : Instr → Selector
  | .rdCmd => .access (encodeRead 0)
  | .rdStatus => .access (encodeRead 1)
  | .rdTreq => .access (encodeRead 2)
  | .rdTptr => .access (encodeRead 3)
  | .rdTlen => .access (encodeRead 4)
  | .rdTidx => .access (encodeRead 5)
  | .rdTcount => .access (encodeRead 6)
  | .rdTstat => .access (encodeRead 7)
  | .rdTcnt => .access (encodeRead 8)
  | .rdBev => .access (encodeRead 9)
  | .rdBcntAdd => .access (encodeRead 10)
  | .rdBcntSet => .access (encodeRead 11)
  | .rdBtn => .access (encodeRead 12)
  | .rdRsvd13 => .access (encodeRead 13)
  | .rdRsvd14 => .access (encodeRead 14)
  | .rdRsvd15 => .access (encodeRead 15)
  | .cmdNop => .access (encodeCommand 0)
  | .cmdSubmit => .access (encodeCommand 1)
  | .cmdTStart => .access (encodeCommand 2)
  | .cmdTStop => .access (encodeCommand 3)
  | .cmdAckTick => .access (encodeCommand 4)
  | .cmdAckSec => .access (encodeCommand 5)
  | .cmdReserved67 op => .access (encodeCommand op)
  | .cmdReserved815 op => .access (encodeCommand op)
  | .wrStatus d => .access (encodeWrite 1 d)
  | .wrTreq d => .access (encodeWrite 2 d)
  | .wrTptr d => .access (encodeWrite 3 d)
  | .wrTlen d => .access (encodeWrite 4 d)
  | .wrTidx d => .access (encodeWrite 5 d)
  | .wrTcount d => .access (encodeWrite 6 d)
  | .wrTstat d => .access (encodeWrite 7 d)
  | .wrTcnt d => .access (encodeWrite 8 d)
  | .wrBev d => .access (encodeWrite 9 d)
  | .wrBcntAdd d => .access (encodeWrite 10 d)
  | .wrBcntSet d => .access (encodeWrite 11 d)
  | .wrBtn d => .access (encodeWrite 12 d)
  | .wrRsvd13 d => .access (encodeWrite 13 d)
  | .wrRsvd14 d => .access (encodeWrite 14 d)
  | .wrRsvd15 d => .access (encodeWrite 15 d)
  | .hSpurious e => .event e ⟨false, .idle, false, 0, 0⟩
  | .hFaultEvArbLost => .event evArbLost ⟨true, .addressing, false, 0, 0⟩
  | .hFaultEvBusError => .event evBusError ⟨true, .addressing, false, 0, 0⟩
  | .hNackEvAddrNack => .event evAddrNack ⟨true, .addressing, false, 0, 0⟩
  | .hNackEvDataNack => .event evDataNack ⟨true, .writing, false, 0, 0⟩
  | .hStopDone => .event evStopDone ⟨true, .stopping, false, 0, 0⟩
  | .hWriteNextEvAddrAck => .event evAddrAck ⟨true, .addressing, false, 0, 1⟩
  | .hWriteNextEvDataAck => .event evDataAck ⟨true, .writing, false, 0, 1⟩
  | .hWriteDoneEvAddrAck => .event evAddrAck ⟨true, .addressing, false, 0, 0⟩
  | .hWriteDoneEvDataAck => .event evDataAck ⟨true, .writing, false, 1, 1⟩
  | .hReadFirst => .event evAddrAck ⟨true, .addressing, true, 0, 0⟩
  | .hReadByte => .event evDataRcvd ⟨true, .reading, true, 0, 0⟩
  | .hIgnored e => .event e ⟨true, .idle, false, 0, 0⟩
  | .aStartAddr => .action actStartAddr
  | .aSend => .action actSend
  | .aRecv => .action actRecv
  | .aAckRecv => .action actAckRecv
  | .aNackStop => .action actNackStop
  | .aStop => .action actStop
  | .aNone => .action actNone
  | .aReserved7 => .action actReserved7
  | .lineStep => .signal .clockEdge true
  | .tbStep => .signal .timebase true
  | .tick => .signal .tickDue true
  | .secStep => .signal .secondRunning true
  | .bSamplePressed b => .signal (.sample b) true
  | .bSampleReleased b => .signal (.sample b) false
  | .handler => .signal .handlerReady true

-- The access rows of spec/opcode_table.json ------------------------------------------------------------------------

/-- The `match` and `mask` of the 39 access rows of spec/opcode_table.json, as they stand there. The decoder does not
read them: a statement holds it against them (R77). -/
def accessRows : List (String × BitVec 32 × BitVec 32) := [
  ("RD_CMD", 0x00000000#32, 0x800F0000#32),
  ("RD_STATUS", 0x00010000#32, 0x800F0000#32),
  ("RD_TREQ", 0x00020000#32, 0x800F0000#32),
  ("RD_TPTR", 0x00030000#32, 0x800F0000#32),
  ("RD_TLEN", 0x00040000#32, 0x800F0000#32),
  ("RD_TIDX", 0x00050000#32, 0x800F0000#32),
  ("RD_TCOUNT", 0x00060000#32, 0x800F0000#32),
  ("RD_TSTAT", 0x00070000#32, 0x800F0000#32),
  ("RD_TCNT", 0x00080000#32, 0x800F0000#32),
  ("RD_BEV", 0x00090000#32, 0x800F0000#32),
  ("RD_BCNT_ADD", 0x000A0000#32, 0x800F0000#32),
  ("RD_BCNT_SET", 0x000B0000#32, 0x800F0000#32),
  ("RD_BTN", 0x000C0000#32, 0x800F0000#32),
  ("RD_RSVD13", 0x000D0000#32, 0x800F0000#32),
  ("RD_RSVD14", 0x000E0000#32, 0x800F0000#32),
  ("RD_RSVD15", 0x000F0000#32, 0x800F0000#32),
  ("CMD_NOP", 0x80000000#32, 0x800F000F#32),
  ("CMD_SUBMIT", 0x80000001#32, 0x800F000F#32),
  ("CMD_T_START", 0x80000002#32, 0x800F000F#32),
  ("CMD_T_STOP", 0x80000003#32, 0x800F000F#32),
  ("CMD_ACK_TICK", 0x80000004#32, 0x800F000F#32),
  ("CMD_ACK_SEC", 0x80000005#32, 0x800F000F#32),
  ("CMD_RESERVED_6_7", 0x80000006#32, 0x800F000E#32),
  ("CMD_RESERVED_8_15", 0x80000008#32, 0x800F0008#32),
  ("WR_STATUS", 0x80010000#32, 0x800F0000#32),
  ("WR_TREQ", 0x80020000#32, 0x800F0000#32),
  ("WR_TPTR", 0x80030000#32, 0x800F0000#32),
  ("WR_TLEN", 0x80040000#32, 0x800F0000#32),
  ("WR_TIDX", 0x80050000#32, 0x800F0000#32),
  ("WR_TCOUNT", 0x80060000#32, 0x800F0000#32),
  ("WR_TSTAT", 0x80070000#32, 0x800F0000#32),
  ("WR_TCNT", 0x80080000#32, 0x800F0000#32),
  ("WR_BEV", 0x80090000#32, 0x800F0000#32),
  ("WR_BCNT_ADD", 0x800A0000#32, 0x800F0000#32),
  ("WR_BCNT_SET", 0x800B0000#32, 0x800F0000#32),
  ("WR_BTN", 0x800C0000#32, 0x800F0000#32),
  ("WR_RSVD13", 0x800D0000#32, 0x800F0000#32),
  ("WR_RSVD14", 0x800E0000#32, 0x800F0000#32),
  ("WR_RSVD15", 0x800F0000#32, 0x800F0000#32)]

/-- The mnemonic of each operation's row, as spec/opcode_table.json spells it. -/
def Instr.mnemonic : Instr → String
  | .rdCmd => "RD_CMD"
  | .rdStatus => "RD_STATUS"
  | .rdTreq => "RD_TREQ"
  | .rdTptr => "RD_TPTR"
  | .rdTlen => "RD_TLEN"
  | .rdTidx => "RD_TIDX"
  | .rdTcount => "RD_TCOUNT"
  | .rdTstat => "RD_TSTAT"
  | .rdTcnt => "RD_TCNT"
  | .rdBev => "RD_BEV"
  | .rdBcntAdd => "RD_BCNT_ADD"
  | .rdBcntSet => "RD_BCNT_SET"
  | .rdBtn => "RD_BTN"
  | .rdRsvd13 => "RD_RSVD13"
  | .rdRsvd14 => "RD_RSVD14"
  | .rdRsvd15 => "RD_RSVD15"
  | .cmdNop => "CMD_NOP"
  | .cmdSubmit => "CMD_SUBMIT"
  | .cmdTStart => "CMD_T_START"
  | .cmdTStop => "CMD_T_STOP"
  | .cmdAckTick => "CMD_ACK_TICK"
  | .cmdAckSec => "CMD_ACK_SEC"
  | .cmdReserved67 _ => "CMD_RESERVED_6_7"
  | .cmdReserved815 _ => "CMD_RESERVED_8_15"
  | .wrStatus _ => "WR_STATUS"
  | .wrTreq _ => "WR_TREQ"
  | .wrTptr _ => "WR_TPTR"
  | .wrTlen _ => "WR_TLEN"
  | .wrTidx _ => "WR_TIDX"
  | .wrTcount _ => "WR_TCOUNT"
  | .wrTstat _ => "WR_TSTAT"
  | .wrTcnt _ => "WR_TCNT"
  | .wrBev _ => "WR_BEV"
  | .wrBcntAdd _ => "WR_BCNT_ADD"
  | .wrBcntSet _ => "WR_BCNT_SET"
  | .wrBtn _ => "WR_BTN"
  | .wrRsvd13 _ => "WR_RSVD13"
  | .wrRsvd14 _ => "WR_RSVD14"
  | .wrRsvd15 _ => "WR_RSVD15"
  | .hSpurious _ => "H_SPURIOUS"
  | .hFaultEvArbLost => "H_FAULT_EV_ARB_LOST"
  | .hFaultEvBusError => "H_FAULT_EV_BUS_ERROR"
  | .hNackEvAddrNack => "H_NACK_EV_ADDR_NACK"
  | .hNackEvDataNack => "H_NACK_EV_DATA_NACK"
  | .hStopDone => "H_STOP_DONE"
  | .hWriteNextEvAddrAck => "H_WRITE_NEXT_EV_ADDR_ACK"
  | .hWriteNextEvDataAck => "H_WRITE_NEXT_EV_DATA_ACK"
  | .hWriteDoneEvAddrAck => "H_WRITE_DONE_EV_ADDR_ACK"
  | .hWriteDoneEvDataAck => "H_WRITE_DONE_EV_DATA_ACK"
  | .hReadFirst => "H_READ_FIRST"
  | .hReadByte => "H_READ_BYTE"
  | .hIgnored _ => "H_IGNORED"
  | .aStartAddr => "A_START_ADDR"
  | .aSend => "A_SEND"
  | .aRecv => "A_RECV"
  | .aAckRecv => "A_ACK_RECV"
  | .aNackStop => "A_NACK_STOP"
  | .aStop => "A_STOP"
  | .aNone => "A_NONE"
  | .aReserved7 => "A_RESERVED_7"
  | .lineStep => "LINE_STEP"
  | .tbStep => "TB_STEP"
  | .tick => "TICK"
  | .secStep => "SEC_STEP"
  | .bSamplePressed _ => "B_SAMPLE_PRESSED"
  | .bSampleReleased _ => "B_SAMPLE_RELEASED"
  | .handler => "HANDLER"

end Sys2Proof
end

