-- ==== Sys2Proof/Machine/State.lean ====
section
/-! DEFINITION. The state of the block, element by element as 10_state.md gives it, grouped by unit; the buffer space beside
the block (20_memory.md rule R42); the model's own bookkeeping of the cycle (`CycleIo`); and the state after reset (R31). -/

namespace Sys2Proof.Machine

/-- The sequencer (R10, R11, R14, R15). Bits are `Bool`: `true` is 1. -/
structure Sequencer where
  /-- `state`. -/
  state : SeqState
  /-- `pending`: the pending-transfer marker. -/
  pending : Bool
  /-- `outcome`. -/
  outcome : BusOutcome
  /-- `final`: the terminal outcome waiting for the stop condition. -/
  finalOutcome : BusOutcome
  /-- `addr_byte`: `(address[6:0], direction)`. -/
  addrByte : Byte
  /-- `dir`: 0 write, 1 read. -/
  dir : Bool
  /-- `buf_valid`: a transfer is registered. -/
  bufValid : Bool
  /-- `buf_start`. -/
  bufStart : BufAddr
  /-- `length`. -/
  length : BufLen
  /-- `idx`: the cursor. -/
  idx : BufLen
  /-- `sub_acc`: the result of the most recent `SUBMIT`. -/
  subAcc : Bool
  /-- `treq`: operand, address in 6:0, direction in 7. -/
  treq : Byte
  /-- `tptr`: operand, buffer start. -/
  tptr : BufAddr
  /-- `tlen`: operand, length. -/
  tlen : BufLen
deriving DecidableEq, Repr

/-- The latches and the data register between sequencer and line engine (R13, R16). The codes are raw, so that the
reserved ones of R70 and R71 can be present (R74, R92). -/
structure Latches where
  /-- `ev_pending`. -/
  evPending : Bool
  /-- `ev_code`. -/
  evCode : BitVec 4
  /-- `act_valid`. -/
  actValid : Bool
  /-- `act_code`. -/
  actCode : BitVec 3
  /-- `dreg`. -/
  dreg : Byte
deriving DecidableEq, Repr

/-- The line engine (R17, R18, R19). -/
structure LineEngine where
  /-- `ph`. -/
  ph : Phase
  /-- `qcnt`: cycles counted in the current phase (log 13). -/
  qcnt : Nat
  /-- `unit`. -/
  unit : CellUnit
  /-- `bitcnt`. -/
  bitcnt : BitVec 4
  /-- `shreg`. -/
  shreg : Byte
  /-- `ackbit`: 0 ACK, 1 NACK. -/
  ackbit : Bool
  /-- `sda_o`: 0 drives SDA low, 1 releases it. -/
  sdaO : Bool
  /-- `scl_o`. -/
  sclO : Bool
  /-- `sda_q`: SDA as the previous step sampled it. -/
  sdaQ : Bool
  /-- `scl_q`. -/
  sclQ : Bool
  /-- `busy_det`: 1 from a start condition seen to the next stop condition seen. -/
  busyDet : Bool
deriving DecidableEq, Repr

/-- The timer source (R21 to R24). -/
structure Timer where
  /-- `count`. -/
  count : Count
  /-- `running`. -/
  running : Bool
  /-- `tdiv`: the tick divider (log 13). -/
  tdiv : Nat
  /-- `tick_pending`. -/
  tickPending : Bool
  /-- `sec_pending`. -/
  secPending : Bool
  /-- `tcount`: operand of `T_START`, result of `T_STOP`. -/
  tcount : Count
deriving DecidableEq, Repr

/-- What the classifier holds for one button (R25, R26). -/
structure PressCounter where
  /-- `active[b]`. -/
  active : Byte
  /-- `long_fired[b]`. -/
  longFired : Bool
  /-- `bev[b]`. -/
  bev : ButtonEvent
deriving DecidableEq, Repr

/-- Which stage of the current cycle comes next, in the order of R6. -/
inductive Stage where
  /-- (1) sample the inputs. -/
  | sample
  /-- (2) the timebase step. -/
  | timebase
  /-- (3) the line-engine step. -/
  | line
  /-- (4) the handler step. -/
  | handler
  /-- (5) the host's access. -/
  | host
deriving DecidableEq, Repr, Inhabited

/-- The model's own fields: where in a cycle the machine is, the inputs sampled in it, and the inputs to come
(logs 1, 2, 8, 9). -/
structure CycleIo where
  /-- The stage the next step makes. -/
  stage : Stage
  /-- The inputs of the current cycle, sampled at stage (1). -/
  cur : Stimulus
  /-- `sda_in` of the current cycle (R110). -/
  sdaIn : Bool
  /-- `scl_in` of the current cycle (R110). -/
  sclIn : Bool
  /-- `ev_pending` at the start of the current cycle (R6 stage 4). -/
  evAtStart : Bool
  /-- What the port answered to this cycle's `RD` (R60); none where there was none. -/
  rdData : Option Reg
  /-- Inputs of coming cycles already laid down, the next one first. -/
  script : List Stimulus
  /-- How many cycles have been sampled. -/
  cycle : Nat
deriving DecidableEq, Repr

/-- The buffer space: (address, byte) pairs, addresses strictly rising; an address not listed has not been written. -/
abbrev Memory := List Host.Cell

/-- The state of the machine. -/
structure State where
  seq : Sequencer
  link : Latches
  line : LineEngine
  timer : Timer
  /-- The press counter and event latch of Add. -/
  bAdd : PressCounter
  /-- The press counter and event latch of Set. -/
  bSet : PressCounter
  /-- The buffer space (R42). -/
  buffer : Memory
  io : CycleIo
  /-- The build parameters (R3); no step writes them. -/
  par : Params
deriving DecidableEq, Repr

/-- Why a step could stop with a fault. It has no constructor: "Nothing in the block traps" (R74), and R200 lists every
condition of the block, none of which stops it. Safe: a machine that never faults hides no behaviour. -/
inductive Fault where
deriving DecidableEq, Repr

/-- Why a step could be refused. -/
inductive Refusal where
  /-- Raised by an arm of `exec` for an operation that has no meaning yet. Safe: the step does not go on. No arm raises
  it now. -/
  | notModelled (mnemonic : String)
deriving DecidableEq, Repr

/-- R31: the sequencer after reset. -/
def Sequencer.reset : Sequencer :=
  { state := .idle, pending := false, outcome := .success, finalOutcome := .success, addrByte := 0, dir := false,
    bufValid := false, bufStart := 0, length := 0, idx := 0, subAcc := false, treq := 0, tptr := 0, tlen := 0 }

/-- R31: the latches after reset. -/
def Latches.reset : Latches :=
  { evPending := false, evCode := evNone, actValid := false, actCode := actNone, dreg := 0 }

/-- R31: the line engine after reset; both lines released (R232). -/
def LineEngine.reset : LineEngine :=
  { ph := .idle, qcnt := 0, unit := .addr, bitcnt := 0, shreg := 0, ackbit := true, sdaO := true, sclO := true,
    sdaQ := true, sclQ := true, busyDet := false }

/-- R31: the timer after reset. -/
def Timer.reset : Timer :=
  { count := 0, running := false, tdiv := 0, tickPending := false, secPending := false, tcount := 0 }

/-- R31: a press counter after reset. -/
def PressCounter.reset : PressCounter :=
  { active := 0, longFired := false, bev := .none }

/-- The model's own fields before the first cycle. DESIGN CHOICE (log 9); the first step writes all but `script`. -/
def CycleIo.reset : CycleIo :=
  { stage := .sample, cur := Stimulus.quiet, sdaIn := true, sclIn := true, evAtStart := false, rdData := none,
    script := [], cycle := 0 }

/-- The machine right after reset (R31, R231): every element at its value there, nothing written in the buffer space. -/
def State.reset : State :=
  { seq := Sequencer.reset, link := Latches.reset, line := LineEngine.reset, timer := Timer.reset,
    bAdd := PressCounter.reset, bSet := PressCounter.reset, buffer := [], io := CycleIo.reset, par := Config.params }

end Sys2Proof.Machine
end

