-- ==== Sys2Proof/Machine/Flags.lean ====
section
/-! DEFINITION. The one-bit functions of state and inputs that are no state themselves: `bus_idle` (R20), the interrupt
requests (R206, R207), the port `pending` (R221), the pressed predicate (R161), and the detector's two conditions
(R111). -/

namespace Sys2Proof.Machine

/-- `bus_idle` (R20), on this cycle's wire levels. -/
def busIdle (s : State) : Bool :=
  decide (s.line.ph = .idle) && !s.line.busyDet && s.io.sdaIn && s.io.sclIn

/-- The output `irq_tick` (R206). -/
def irqTick (s : State) : Bool := s.timer.tickPending

/-- The output `irq_second` (R207). -/
def irqSecond (s : State) : Bool := s.timer.secPending && s.timer.running

/-- The output port `pending` (R221). -/
def pendingPort (s : State) : Bool := s.seq.pending

/-- The raw line of a button in this cycle (R4). -/
def buttonLevel (b : Button) (s : State) : Bool :=
  match b with
  | .add => s.io.cur.btnAdd
  | .set => s.io.cur.btnSet

/-- `ACTIVE_LEVEL[b]` (R3). -/
def activeLevel (b : Button) (s : State) : Bool :=
  match b with
  | .add => s.par.activeLevelAdd
  | .set => s.par.activeLevelSet

/-- `LONG_TICKS[b]` (R3). -/
def longTicks (b : Button) (s : State) : Byte :=
  match b with
  | .add => s.par.longAdd
  | .set => s.par.longSet

/-- `pressed(b)` (R161). -/
def pressed (b : Button) (s : State) : Bool := buttonLevel b s == activeLevel b s

/-- `start_det` (R111): SDA fell while SCL stayed high. -/
def startDet (s : State) : Bool := s.line.sclQ && s.io.sclIn && s.line.sdaQ && !s.io.sdaIn

/-- `stop_det` (R111): SDA rose while SCL stayed high. -/
def stopDet (s : State) : Bool := s.line.sclQ && s.io.sclIn && !s.line.sdaQ && s.io.sdaIn

/-- `tx_bit` (R121): the current cell carries a bit the master sends. -/
def txBit (s : State) : Bool :=
  (decide (s.line.unit = .addr) || decide (s.line.unit = .tx)) && decide (s.line.bitcnt < 8)

end Sys2Proof.Machine
end

