-- ==== Sys2Proof/Machine/Operands.lean ====
section
/-! DEFINITION. Operand assembly (30_encoding.md section 3, R67; R47) and the values the host registers read as
(R61 to R66). -/

namespace Sys2Proof.Machine

/-- The address byte (R67): `(treq[6:0], treq[7])`. -/
def addressByte (treq : Byte) : Byte := treq.extractLsb' 0 7 ++ treq.extractLsb' 7 1

/-- The direction bit of `treq` (R64): 0 write, 1 read. -/
def requestDir (treq : Byte) : Bool := treq.getLsbD 7

/-- The effective address of every buffer access (R47): `(buf_start + idx) mod 2^AW`. -/
def bufferAddress (s : State) : BufAddr := fit s.par.aw.val (s.seq.bufStart + s.seq.idx)

/-- What TPTR keeps of write data (R64). -/
def toAddress (s : State) (data : Reg) : BufAddr := fit s.par.aw.val data

/-- What TLEN keeps of write data, and what TLEN and TIDX read of their element (R64). -/
def toLength (s : State) (data : Reg) : BufLen := fit s.par.lw.val data

/-- What TCOUNT keeps of write data, and what TCOUNT and TCNT read of their element (R65, R143). -/
def toCount (s : State) (data : Reg) : Count := fit s.par.cw.val data

/-- The low byte of write data: what TREQ keeps (R64). -/
def lowByte (data : Reg) : Byte := data.setWidth 8

/-- One bit as a bit vector. -/
def bit (b : Bool) : BitVec 1 := BitVec.ofBool b

/-- STATUS (R63). -/
def statusWord (s : State) : Reg :=
  0#2 ++ s.link.evCode ++ bit s.link.evPending ++ bit s.seq.bufValid ++ s.seq.state.code ++ s.seq.outcome.code
    ++ bit s.seq.subAcc ++ bit (busIdle s) ++ bit s.seq.pending

/-- TSTAT (R65). -/
def tstatWord (s : State) : Reg :=
  0#11 ++ bit (irqTick s) ++ bit (irqSecond s) ++ bit s.timer.tickPending ++ bit s.timer.secPending
    ++ bit s.timer.running

/-- BEV (R66). -/
def bevWord (s : State) : Reg := 0#9 ++ s.bSet.bev.code ++ 0#1 ++ s.bAdd.bev.code

/-- BCNT_ADD and BCNT_SET (R66). -/
def bcntWord (c : PressCounter) : Reg := 0#7 ++ bit c.longFired ++ c.active

/-- BTN (R66): the lines of this cycle, normalised to "pressed". -/
def btnWord (s : State) : Reg := 0#14 ++ bit (pressed .set s) ++ bit (pressed .add s)

/-- TREQ's element read as a register: the upper bits read 0 (R64). -/
def byteWord (b : Byte) : Reg := b.setWidth 16

/-- `r[idx]`: what a read of a register index returns (R61, R45). -/
def regValue (idx : BitVec 4) (s : State) : Reg :=
  match idx.toNat with
  | 0 => 0
  | 1 => statusWord s
  | 2 => byteWord s.seq.treq
  | 3 => toAddress s s.seq.tptr
  | 4 => toLength s s.seq.tlen
  | 5 => toLength s s.seq.idx
  | 6 => toCount s s.timer.tcount
  | 7 => tstatWord s
  | 8 => toCount s s.timer.count
  | 9 => bevWord s
  | 10 => bcntWord s.bAdd
  | 11 => bcntWord s.bSet
  | 12 => btnWord s
  | _ => 0

end Sys2Proof.Machine
end

