-- ==== Sys2Proof/Machine/Ops.lean ====
section
/-! DEFINITION. The named operations over the buffer space, the registers and the latches that the meanings share. The one
exception mechanism of the block is here: raising a bus event (R128), aborting with one (R129), and the handler's taking
of it (R93); R213 has no return operation. -/

namespace Sys2Proof.Machine

/-- The answer of a step of this machine. -/
abbrev Result := Host.Outcome State Fault Refusal

/-- What `f` makes of a next state; a fault or a refusal stays. -/
def onNext (f : State → State) : Result → Result
  | .next s => .next (f s)
  | .fault r => .fault r
  | .refused r => .refused r

-- The buffer space (R42, R46) --------------------------------------------------------------------------------------

/-- The byte written at an address; none where nothing has been written. -/
def Memory.peek : Memory → Nat → Option Byte
  | [], _ => none
  | (a, b) :: rest, k => if a = k then some b else Memory.peek rest k

/-- Store one byte, keeping the addresses strictly rising. -/
def Memory.poke : Memory → Nat → Byte → Memory
  | [], k, v => [(k, v)]
  | (a, b) :: rest, k, v =>
    if k < a then (k, v) :: (a, b) :: rest
    else if k = a then (k, v) :: rest
    else (a, b) :: Memory.poke rest k v

/-- The listed addresses rise strictly from `lo` on and lie in the buffer space. -/
def Memory.wfFrom (lo : Nat) : Memory → Bool
  | [] => true
  | (a, _) :: rest => decide (lo ≤ a) && decide (a < 65536) && Memory.wfFrom (a + 1) rest

/-- The canonical form of the buffer space. -/
def Memory.wf (m : Memory) : Bool := Memory.wfFrom 0 m

/-- What an unlisted address reads as: any value, the same at each read (93 V9; log 4). -/
def Memory.unlisted (a : BufAddr) : Byte := Config.bufferByte a

/-- `MemRead(addr, 1)` (R46). -/
def memRead (a : BufAddr) (m : Memory) : Byte := (Memory.peek m a.toNat).getD (Memory.unlisted a)

/-- `MemWrite(addr, 1, v)` (R46). -/
def memWrite (a : BufAddr) (v : Byte) (m : Memory) : Memory := Memory.poke m a.toNat v

/-- The host's own stores of one cycle, oldest first (R42, R241). -/
def hostStores : List (BufAddr × Byte) → Memory → Memory
  | [], m => m
  | (a, v) :: rest, m => hostStores rest (memWrite a v m)

-- The host port ----------------------------------------------------------------------------------------------------

/-- The port answers a read (R60). -/
def answer (v : Reg) (s : State) : State := { s with io := { s.io with rdData := some v } }

-- Latches (R16) ----------------------------------------------------------------------------------------------------

/-- `issue(a)` (R83). -/
def issue (a : BitVec 3) (s : State) : State := { s with link := { s.link with actCode := a, actValid := true } }

/-- `raise Event(code)` (R128). -/
def raiseEvent (e : BitVec 4) (s : State) : State := { s with link := { s.link with evCode := e, evPending := true } }

/-- The handler takes the pending event (R93): `ev_pending <- 0`. -/
def takeEvent (s : State) : State := { s with link := { s.link with evPending := false } }

/-- The line engine takes the latched action (R114, R115): `act_valid <- 0`. -/
def takeLatched (s : State) : State := { s with link := { s.link with actValid := false } }

-- Line engine ------------------------------------------------------------------------------------------------------

/-- Enter a phase: `ph <- p ; qcnt <- 0` (R113). -/
def enterPhase (p : Phase) (s : State) : State := { s with line := { s.line with ph := p, qcnt := 0 } }

/-- `abort(code)` (R129): release both lines, go idle, raise the event. -/
def abort (e : BitVec 4) (s : State) : State :=
  raiseEvent e { s with line := { s.line with sdaO := true, sclO := true, ph := .idle, qcnt := 0 } }

/-- `sda_o <- b`. -/
def driveSda (b : Bool) (s : State) : State := { s with line := { s.line with sdaO := b } }

/-- `scl_o <- b`. -/
def driveScl (b : Bool) (s : State) : State := { s with line := { s.line with sclO := b } }

-- Sequencer --------------------------------------------------------------------------------------------------------

/-- Record a terminal outcome (R85, R87): `outcome <- o ; pending <- 0 ; buf_valid <- 0 ; state <- S_IDLE`. -/
def finish (o : BusOutcome) (s : State) : State :=
  { s with seq := { s.seq with outcome := o, pending := false, bufValid := false, state := .idle } }

/-- `final <- o ; issue(a) ; state <- S_STOPPING` (R86, R89, R91). -/
def beginStop (o : BusOutcome) (a : BitVec 3) (s : State) : State :=
  issue a { s with seq := { s.seq with finalOutcome := o, state := .stopping } }

-- Buttons ----------------------------------------------------------------------------------------------------------

/-- The press counter and event latch of a button (R25: indexed by the button, no aliasing). -/
def buttonOf (b : Button) (s : State) : PressCounter :=
  match b with
  | .add => s.bAdd
  | .set => s.bSet

/-- Replace what the classifier holds for one button. -/
def withButton (b : Button) (c : PressCounter) (s : State) : State :=
  match b with
  | .add => { s with bAdd := c }
  | .set => { s with bSet := c }

end Sys2Proof.Machine
end

