-- ==== Sys2Proof/Machine/Cycle.lean ====
section
/-! DEFINITION. The clock cycle around the operations (00_scope.md rule R6): sampling the inputs, reset (R230), which
operation a stage runs, and the stage that comes next. -/

namespace Sys2Proof.Machine

/-- The inputs of the next cycle: laid down in the script, or free (log 2). -/
def nextStimulus (s : State) : Stimulus :=
  match s.io.script with
  | [] => Config.stimulus s.io.cycle
  | x :: _ => x

/-- Stage (1): the inputs `x` are sampled. The wire levels are the AND of the engine's outputs and the other drivers
(R110); the host's own stores reach the buffer space (log 5). -/
def sampleAs (x : Stimulus) (s : State) : State :=
  { s with
    buffer := hostStores x.bufWrites s.buffer
    io :=
      { stage := .timebase
        cur := x
        sdaIn := s.line.sdaO && x.extSda
        sclIn := s.line.sclO && x.extScl
        evAtStart := s.link.evPending
        rdData := none
        script := s.io.script.tail
        cycle := s.io.cycle + 1 } }

/-- R230: every element of the block takes its reset value (R31); the buffer space is not touched (R231), nor are the
parameters; the cycle has no further stage. -/
def resetBlock (s : State) : State :=
  { s with
    seq := Sequencer.reset, link := Latches.reset, line := LineEngine.reset, timer := Timer.reset
    bAdd := PressCounter.reset, bSet := PressCounter.reset
    io := { s.io with stage := .sample, evAtStart := false } }

/-- R230: in a reset cycle a read returns the reset-state value (with this cycle's lines, R231; log 17), and any other
access is ignored. -/
def answerInReset (s : State) : State :=
  match s.io.cur.access with
  | none => s
  | some w => if accessIsWrite w then s else answer (regValue (accessIdx w) s) s

/-- Stage (1) of a cycle: sample, and reset where `rst = 1`. -/
def sampleInputs (s : State) : State :=
  let t := sampleAs (nextStimulus s) s
  if t.io.cur.rst then answerInReset (resetBlock t) else t

/-- The stage after a stage (R6); after the host's access the next cycle begins. -/
def Stage.after : Stage → Stage
  | .sample => .timebase
  | .timebase => .line
  | .line => .handler
  | .handler => .host
  | .host => .sample

/-- Go on to the next stage. -/
def advance (s : State) : State := { s with io := { s.io with stage := Stage.after s.io.stage } }

/-- The handler step is enabled and scheduled (R6 stage 4, R82). -/
def handlerEnabled (s : State) : Bool := !s.io.cur.pd && s.io.evAtStart && s.io.cur.handlerGo

/-- The operation the current stage runs: none where its agent makes no step in this cycle. -/
def currentInstr (s : State) : Option Instr :=
  match s.io.stage with
  | .sample => none
  | .timebase => if s.io.cur.tbEn then some .tbStep else none
  | .line => if s.io.cur.pd then none else some .lineStep
  | .handler => if handlerEnabled s then some .handler else none
  | .host => s.io.cur.access.map decodeAccess

end Sys2Proof.Machine
end

