-- ==== Sys2Proof/Machine/Command.lean ====
section
/-! DEFINITION. The host commands (R62): the operation named by the opcode of a write to CMD, one atomic step each
(R54, R145). -/

namespace Sys2Proof.Machine

/-- `CMD NOP`: nothing (R74). -/
def execCmdNop (s : State) : Result := .next s

/-- Whether a `SUBMIT` is accepted (R81): no transfer pending and the bus observed idle. -/
def submitAccepted (s : State) : Bool := !s.seq.pending && busIdle s

/-- The request an accepted `SUBMIT` registers (R81). -/
def acceptTransfer (s : State) : State :=
  issue actStartAddr
    { s with seq := { s.seq with
        addrByte := addressByte s.seq.treq
        dir := requestDir s.seq.treq
        bufStart := s.seq.tptr
        length := s.seq.tlen
        idx := 0
        bufValid := true
        pending := true
        outcome := .inProgress
        state := .addressing
        subAcc := true } }

/-- `CMD SUBMIT` (R81); a rejection, `bus_busy`, changes `sub_acc` only (R201). -/
def execCmdSubmit (s : State) : Result :=
  .next (if submitAccepted s then acceptTransfer s else { s with seq := { s.seq with subAcc := false } })

/-- `CMD T_START` (R143). -/
def execCmdTStart (s : State) : Result :=
  .next { s with timer := { s.timer with count := s.timer.tcount, running := true } }

/-- `CMD T_STOP` (R144). -/
def execCmdTStop (s : State) : Result :=
  .next { s with timer := { s.timer with running := false, tcount := s.timer.count } }

/-- `CMD ACK_TICK` (R146). -/
def execCmdAckTick (s : State) : Result := .next { s with timer := { s.timer with tickPending := false } }

/-- `CMD ACK_SEC` (R147). -/
def execCmdAckSec (s : State) : Result := .next { s with timer := { s.timer with secPending := false } }

/-- Reserved opcodes 6 and 7: no effect (R74; log 15). -/
def execCmdReserved67 (_op : BitVec 4) (s : State) : Result := .next s

/-- Reserved opcodes 8 to 15: no effect (R74; log 15). -/
def execCmdReserved815 (_op : BitVec 4) (s : State) : Result := .next s

end Sys2Proof.Machine
end

