-- ==== Sys2Proof/Machine/Handler.lean ====
section
/-! DEFINITION. The handler step of the sequencer (40_bus_sequencer.md section 3): the thirteen arms and their
selection. An arm's operation is its rule's pseudocode after `ev_pending <- 0` (R93); which arm runs is `selectArm`'s
choice alone (log 10). -/

namespace Sys2Proof.Machine

/-- `H_SPURIOUS` and `H_IGNORED`: `ev_pending <- 0` and nothing else (R84, R92). -/
def dropEvent (s : State) : State := takeEvent s

/-- `H_FAULT` (R85). -/
def faultArm (s : State) : State := finish .arbitrationLost (takeEvent s)

/-- `H_NACK` (R86). -/
def nackArm (s : State) : State := beginStop .addressNack actStop (takeEvent s)

/-- `H_STOP_DONE` (R87): publish `final`. -/
def stopDoneArm (s : State) : State := finish s.seq.finalOutcome (takeEvent s)

/-- `H_WRITE_NEXT` (R88): the byte at the cursor goes to `dreg`, the cursor moves, the byte is sent. -/
def writeNextArm (s : State) : State :=
  issue actSend
    { takeEvent s with
      link := { s.link with evPending := false, dreg := memRead (bufferAddress s) s.buffer }
      seq := { s.seq with idx := s.seq.idx + 1, state := .writing } }

/-- `H_WRITE_DONE` (R89). -/
def writeDoneArm (s : State) : State := beginStop .success actStop (takeEvent s)

/-- `H_READ_FIRST` (R90). -/
def readFirstArm (s : State) : State :=
  issue actRecv { takeEvent s with seq := { s.seq with state := .reading } }

/-- The first branch of `H_READ_BYTE` (R91): store the byte if a slot remains, and move the cursor. -/
def storeReceived (s : State) : State :=
  if s.seq.idx < s.seq.length then
    { s with buffer := memWrite (bufferAddress s) s.link.dreg s.buffer, seq := { s.seq with idx := s.seq.idx + 1 } }
  else s

/-- The second branch of `H_READ_BYTE` (R91): acknowledge and receive, or refuse and stop. -/
def continueRead (s : State) : State :=
  if s.seq.idx < s.seq.length then issue actAckRecv s else beginStop .success actNackStop s

/-- `H_READ_BYTE` (R91). -/
def readByteArm (s : State) : State := continueRead (storeReceived (takeEvent s))

/-- What `selectArm` reads of the state (R93). -/
def armContext (s : State) : ArmContext :=
  { bufValid := s.seq.bufValid, state := s.seq.state, dir := s.seq.dir, idx := s.seq.idx, length := s.seq.length }

/-- Run an arm. -/
def runArm (a : Arm) (s : State) : State :=
  match a with
  | .spurious _ => dropEvent s
  | .faultArbLost => faultArm s
  | .faultBusError => faultArm s
  | .nackAddr => nackArm s
  | .nackData => nackArm s
  | .stopDone => stopDoneArm s
  | .writeNextAddrAck => writeNextArm s
  | .writeNextDataAck => writeNextArm s
  | .writeDoneAddrAck => writeDoneArm s
  | .writeDoneDataAck => writeDoneArm s
  | .readFirst => readFirstArm s
  | .readByte => readByteArm s
  | .ignored _ => dropEvent s

/-- `H_SPURIOUS` (R84). -/
def execHSpurious (_e : BitVec 4) (s : State) : Result := .next (dropEvent s)
/-- `H_FAULT` on `EV_ARB_LOST` (R85). -/
def execHFaultEvArbLost (s : State) : Result := .next (faultArm s)
/-- `H_FAULT` on `EV_BUS_ERROR` (R85). -/
def execHFaultEvBusError (s : State) : Result := .next (faultArm s)
/-- `H_NACK` on `EV_ADDR_NACK` (R86). -/
def execHNackEvAddrNack (s : State) : Result := .next (nackArm s)
/-- `H_NACK` on `EV_DATA_NACK` (R86). -/
def execHNackEvDataNack (s : State) : Result := .next (nackArm s)
/-- `H_STOP_DONE` (R87). -/
def execHStopDone (s : State) : Result := .next (stopDoneArm s)
/-- `H_WRITE_NEXT` on `EV_ADDR_ACK` (R88). -/
def execHWriteNextEvAddrAck (s : State) : Result := .next (writeNextArm s)
/-- `H_WRITE_NEXT` on `EV_DATA_ACK` (R88). -/
def execHWriteNextEvDataAck (s : State) : Result := .next (writeNextArm s)
/-- `H_WRITE_DONE` on `EV_ADDR_ACK` (R89). -/
def execHWriteDoneEvAddrAck (s : State) : Result := .next (writeDoneArm s)
/-- `H_WRITE_DONE` on `EV_DATA_ACK` (R89). -/
def execHWriteDoneEvDataAck (s : State) : Result := .next (writeDoneArm s)
/-- `H_READ_FIRST` (R90). -/
def execHReadFirst (s : State) : Result := .next (readFirstArm s)
/-- `H_READ_BYTE` (R91). -/
def execHReadByte (s : State) : Result := .next (readByteArm s)
/-- `H_IGNORED` (R92): consumed without effect. -/
def execHIgnored (_e : BitVec 4) (s : State) : Result := .next (dropEvent s)

/-- `HANDLER` (R93): exactly one arm, chosen by the event code and the sequencer's state. -/
def execHandler (s : State) : Result := .next (runArm (selectArm s.link.evCode (armContext s)) s)

end Sys2Proof.Machine
end

