-- ==== Sys2Proof/Machine/HostRead.lean ====
section
/-! DEFINITION. The sixteen reads of the host port (R60, R61): each answers its register's value and has no side effect
(R50). -/

namespace Sys2Proof.Machine

/-- `RD CMD`: write-only, reads 0 (R45). -/
def execRdCmd (s : State) : Result := .next (answer 0 s)
/-- `RD STATUS` (R63, R94). -/
def execRdStatus (s : State) : Result := .next (answer (statusWord s) s)
/-- `RD TREQ` (R64). -/
def execRdTreq (s : State) : Result := .next (answer (byteWord s.seq.treq) s)
/-- `RD TPTR` (R64). -/
def execRdTptr (s : State) : Result := .next (answer (toAddress s s.seq.tptr) s)
/-- `RD TLEN` (R64). -/
def execRdTlen (s : State) : Result := .next (answer (toLength s s.seq.tlen) s)
/-- `RD TIDX`: the cursor (R64). -/
def execRdTidx (s : State) : Result := .next (answer (toLength s s.seq.idx) s)
/-- `RD TCOUNT` (R65). -/
def execRdTcount (s : State) : Result := .next (answer (toCount s s.timer.tcount) s)
/-- `RD TSTAT` (R65). -/
def execRdTstat (s : State) : Result := .next (answer (tstatWord s) s)
/-- `RD TCNT`: the live counter (R65). -/
def execRdTcnt (s : State) : Result := .next (answer (toCount s s.timer.count) s)
/-- `RD BEV` (R66); the read does not clear it (R164). -/
def execRdBev (s : State) : Result := .next (answer (bevWord s) s)
/-- `RD BCNT_ADD` (R66). -/
def execRdBcntAdd (s : State) : Result := .next (answer (bcntWord s.bAdd) s)
/-- `RD BCNT_SET` (R66). -/
def execRdBcntSet (s : State) : Result := .next (answer (bcntWord s.bSet) s)
/-- `RD BTN`: the lines of this cycle (R66). -/
def execRdBtn (s : State) : Result := .next (answer (btnWord s) s)
/-- Reserved index 13: reads 0 (R45). -/
def execRdRsvd13 (s : State) : Result := .next (answer 0 s)
/-- Reserved index 14: reads 0 (R45). -/
def execRdRsvd14 (s : State) : Result := .next (answer 0 s)
/-- Reserved index 15: reads 0 (R45). -/
def execRdRsvd15 (s : State) : Result := .next (answer 0 s)

end Sys2Proof.Machine
end

