-- ==== Sys2Proof/Machine/HostWrite.lean ====
section
/-! DEFINITION. The fifteen writes of the host port other than to CMD (R61): four store an operand, the rest, to
read-only registers and reserved indices, change nothing (R45). -/

namespace Sys2Proof.Machine

/-- A write that the block ignores (R45, R74). -/
def ignoreWrite (_data : Reg) (s : State) : State := s

/-- `WR STATUS`: read-only (R45). -/
def execWrStatus (d : Reg) (s : State) : Result := .next (ignoreWrite d s)
/-- `WR TREQ`: bits 7:0 are kept (R64). -/
def execWrTreq (d : Reg) (s : State) : Result := .next { s with seq := { s.seq with treq := lowByte d } }
/-- `WR TPTR`: the low `AW` bits are kept (R64). -/
def execWrTptr (d : Reg) (s : State) : Result := .next { s with seq := { s.seq with tptr := toAddress s d } }
/-- `WR TLEN`: the low `LW` bits are kept (R64). -/
def execWrTlen (d : Reg) (s : State) : Result := .next { s with seq := { s.seq with tlen := toLength s d } }
/-- `WR TIDX`: read-only (R45). -/
def execWrTidx (d : Reg) (s : State) : Result := .next (ignoreWrite d s)
/-- `WR TCOUNT`: taken modulo `2^CW` (R65). -/
def execWrTcount (d : Reg) (s : State) : Result := .next { s with timer := { s.timer with tcount := toCount s d } }
/-- `WR TSTAT`: read-only (R45). -/
def execWrTstat (d : Reg) (s : State) : Result := .next (ignoreWrite d s)
/-- `WR TCNT`: read-only (R45). -/
def execWrTcnt (d : Reg) (s : State) : Result := .next (ignoreWrite d s)
/-- `WR BEV`: read-only (R45). -/
def execWrBev (d : Reg) (s : State) : Result := .next (ignoreWrite d s)
/-- `WR BCNT_ADD`: read-only (R45). -/
def execWrBcntAdd (d : Reg) (s : State) : Result := .next (ignoreWrite d s)
/-- `WR BCNT_SET`: read-only (R45). -/
def execWrBcntSet (d : Reg) (s : State) : Result := .next (ignoreWrite d s)
/-- `WR BTN`: read-only (R45). -/
def execWrBtn (d : Reg) (s : State) : Result := .next (ignoreWrite d s)
/-- Reserved index 13 (R45). -/
def execWrRsvd13 (d : Reg) (s : State) : Result := .next (ignoreWrite d s)
/-- Reserved index 14 (R45). -/
def execWrRsvd14 (d : Reg) (s : State) : Result := .next (ignoreWrite d s)
/-- Reserved index 15 (R45). -/
def execWrRsvd15 (d : Reg) (s : State) : Result := .next (ignoreWrite d s)

end Sys2Proof.Machine
end

