-- ==== Sys2Proof/Machine/LineAction.lean ====
section
/-! DEFINITION. The eight line actions (R71): what the line engine does on taking one from the latch, by the phase it is
taken in (R114 in `P_IDLE`, R115 in `P_HOLD`). In any other phase the engine takes no action and the latch stays
(R83; log 22). -/

namespace Sys2Proof.Machine

/-- Take an action: in `P_IDLE` by `inIdle`, in `P_HOLD` by `inHold` (both after `act_valid <- 0`, and in `P_HOLD`
after `qcnt <- 0`), in no other phase. -/
def takeAction (inIdle inHold : State → State) (s : State) : State :=
  match s.line.ph with
  | .idle => inIdle (takeLatched s)
  | .hold => inHold { takeLatched s with line := { s.line with qcnt := 0 } }
  | .st0 | .st1 | .st2 | .q1 | .q2 | .q3 | .q4 | .sp0 | .sp1 | .sp2 | .sp3 => s

/-- Taken and dropped (R114, R115). -/
def dropped (s : State) : State := s

/-- `A_START_ADDR` (R131): from `P_IDLE` to `P_ST0`. -/
def startAddrOp (s : State) : State := takeAction (enterPhase .st0) dropped s

/-- `A_SEND` (R132): the byte of `dreg` in cells of `U_TX`. -/
def sendOp (s : State) : State :=
  takeAction dropped
    (fun s => { s with line := { s.line with shreg := s.link.dreg, unit := .tx, bitcnt := 0, ph := .q1 } }) s

/-- `A_RECV` (R133): cells of `U_RX`. -/
def recvOp (s : State) : State :=
  takeAction dropped (fun s => { s with line := { s.line with unit := .rx, bitcnt := 0, ph := .q1 } }) s

/-- `A_ACK_RECV` (R134): one cell of `U_ACK`, then as `A_RECV`. -/
def ackRecvOp (s : State) : State :=
  takeAction dropped (fun s => { s with line := { s.line with unit := .ack, ph := .q1 } }) s

/-- `A_NACK_STOP` (R135): one cell of `U_NACK`, then the stop condition. -/
def nackStopOp (s : State) : State :=
  takeAction dropped (fun s => { s with line := { s.line with unit := .nack, ph := .q1 } }) s

/-- `A_STOP` (R136): SDA low at once, then the stop condition. -/
def stopOp (s : State) : State :=
  takeAction dropped (fun s => { s with line := { s.line with sdaO := false, ph := .sp1 } }) s

/-- Codes 0 and 7: taken and dropped (R74, R114, R115). -/
def reservedOp (s : State) : State := takeAction dropped dropped s

/-- Take the action of a code (R71). -/
def runAction (a : BitVec 3) (s : State) : State :=
  match a.toNat with
  | 0 => reservedOp s
  | 1 => startAddrOp s
  | 2 => sendOp s
  | 3 => recvOp s
  | 4 => ackRecvOp s
  | 5 => nackStopOp s
  | 6 => stopOp s
  | _ => reservedOp s

/-- `A_START_ADDR` (R114, R131). -/
def execAStartAddr (s : State) : Result := .next (startAddrOp s)
/-- `A_SEND` (R115, R132). -/
def execASend (s : State) : Result := .next (sendOp s)
/-- `A_RECV` (R115, R133). -/
def execARecv (s : State) : Result := .next (recvOp s)
/-- `A_ACK_RECV` (R115, R134). -/
def execAAckRecv (s : State) : Result := .next (ackRecvOp s)
/-- `A_NACK_STOP` (R115, R135). -/
def execANackStop (s : State) : Result := .next (nackStopOp s)
/-- `A_STOP` (R115, R136). -/
def execAStop (s : State) : Result := .next (stopOp s)
/-- `A_NONE` in the latch (R115). -/
def execANone (s : State) : Result := .next (reservedOp s)
/-- The reserved code 7 in the latch (R115). -/
def execAReserved7 (s : State) : Result := .next (reservedOp s)

end Sys2Proof.Machine
end

