-- ==== Sys2Proof/Machine/LineStep.lean ====
section
/-! DEFINITION. The line-engine step (41_line_engine.md, R130): detector, bus-error monitor, phase timer, and what the end
of each phase does. -/

namespace Sys2Proof.Machine

/-- `Detector()` (R111). -/
def detector (s : State) : State :=
  { s with line := { s.line with
      busyDet := if stopDet s then false else if startDet s then true else s.line.busyDet
      sdaQ := s.io.sdaIn
      sclQ := s.io.sclIn } }

/-- `cell_drive()` (R119): the level SDA takes for the current cell. A `bitcnt` of 8 is the ninth cell; 9 to 15 do not
occur (R17; log 12). -/
def cellDrive (s : State) : Bool :=
  match s.line.unit with
  | .addr | .tx => if s.line.bitcnt < 8 then s.line.shreg.getLsbD 7 else true
  | .rx => true
  | .ack => false
  | .nack => true

/-- `P_ST0` (R116). -/
def endSt0 (s : State) : State :=
  if !s.io.sdaIn || !s.io.sclIn then abort evArbLost s else enterPhase .st1 (driveSda false s)

/-- `P_ST1` (R117). -/
def endSt1 (s : State) : State := enterPhase .st2 (driveScl false s)

/-- `P_ST2` (R118). -/
def endSt2 (s : State) : State :=
  enterPhase .q1 { s with line := { s.line with shreg := s.seq.addrByte, unit := .addr, bitcnt := 0 } }

/-- `P_Q1` (R119). -/
def endQ1 (s : State) : State := enterPhase .q2 (driveSda (cellDrive s) s)

/-- `P_Q2` (R120). -/
def endQ2 (s : State) : State := enterPhase .q3 (driveScl true s)

/-- Arbitration is lost at the sample point (R121): a released 1 the engine owns reads 0. -/
def arbitrationLost (s : State) : Bool :=
  (txBit s && s.line.sdaO && !s.io.sdaIn) || (decide (s.line.unit = .nack) && !s.io.sdaIn)

/-- What the sample of the third quarter does to the shift register and the acknowledge bit (R121). -/
def sampleCell (s : State) : State :=
  if txBit s then { s with line := { s.line with shreg := s.line.shreg <<< 1 } }
  else
    match s.line.unit with
    | .addr | .tx => { s with line := { s.line with ackbit := s.io.sdaIn } }
    | .rx => { s with line := { s.line with shreg := (s.line.shreg <<< 1) ||| (bit s.io.sdaIn).setWidth 8 } }
    | .ack | .nack => s

/-- `P_Q3` (R121). -/
def endQ3 (s : State) : State :=
  if arbitrationLost s then abort evArbLost s else enterPhase .q4 (sampleCell s)

/-- The next cell of the same unit: `bitcnt <- bitcnt + 1 ; ph <- P_Q1` (R122). -/
def nextCell (s : State) : State :=
  enterPhase .q1 { s with line := { s.line with bitcnt := s.line.bitcnt + 1 } }

/-- The event that reports a sent byte (R122): its acknowledge bit is 0 for ACK. -/
def sentEvent (s : State) : BitVec 4 :=
  if s.line.unit = .addr then (if s.line.ackbit then evAddrNack else evAddrAck)
  else (if s.line.ackbit then evDataNack else evDataAck)

/-- `P_Q4` after `scl_o <- 0`, by unit (R122). -/
def endCell (s : State) : State :=
  match s.line.unit with
  | .addr | .tx => if s.line.bitcnt < 8 then nextCell s else raiseEvent (sentEvent s) (enterPhase .hold s)
  | .rx =>
    if s.line.bitcnt < 7 then nextCell s
    else raiseEvent evDataRcvd (enterPhase .hold { s with link := { s.link with dreg := s.line.shreg } })
  | .ack => enterPhase .q1 { s with line := { s.line with unit := .rx, bitcnt := 0 } }
  | .nack => enterPhase .sp0 s

/-- `P_Q4` (R122). -/
def endQ4 (s : State) : State := endCell (driveScl false s)

/-- `P_SP0` (R123). -/
def endSp0 (s : State) : State := enterPhase .sp1 (driveSda false s)

/-- `P_SP1` (R124). -/
def endSp1 (s : State) : State := enterPhase .sp2 (driveScl true s)

/-- `P_SP2` (R125). -/
def endSp2 (s : State) : State := enterPhase .sp3 (driveSda true s)

/-- `P_SP3` (R126): wait until SDA is high. -/
def endSp3 (s : State) : State :=
  if s.io.sdaIn then raiseEvent evStopDone (enterPhase .idle s) else s

/-- `PhaseEnd(ph)` (R116 to R126); `P_IDLE` and `P_HOLD` have no end. -/
def phaseEnd (s : State) : State :=
  match s.line.ph with
  | .st0 => endSt0 s
  | .st1 => endSt1 s
  | .st2 => endSt2 s
  | .q1 => endQ1 s
  | .q2 => endQ2 s
  | .q3 => endQ3 s
  | .q4 => endQ4 s
  | .sp0 => endSp0 s
  | .sp1 => endSp1 s
  | .sp2 => endSp2 s
  | .sp3 => endSp3 s
  | .idle | .hold => s

/-- The bus-error monitor watches this phase (R127). -/
def monitored (p : Phase) : Bool := decide (p = .q3) || decide (p = .q4)

/-- The phase counts only while SCL reads 1 (R113). -/
def stretchable (p : Phase) : Bool := decide (p = .q3) || decide (p = .sp2)

/-- The latched action, if any, is taken (R114, R115). -/
def takePending (s : State) : State := if s.link.actValid then runAction s.link.actCode s else s

/-- Monitor, phase timer and phase end of a phase that counts (R130 after the detector; `bad` is `start_det` or
`stop_det` of this step). -/
def countPhase (bad : Bool) (s : State) : State :=
  if monitored s.line.ph && bad then abort evBusError s
  else if stretchable s.line.ph && !s.io.sclIn then { s with line := { s.line with qcnt := 0 } }
  else if s.line.qcnt ≠ s.par.qdiv - 1 then { s with line := { s.line with qcnt := s.line.qcnt + 1 } }
  else phaseEnd s

/-- `LineStep()` (R130). -/
def lineStepOp (s : State) : State :=
  match s.line.ph with
  | .idle | .hold => takePending (detector s)
  | .st0 | .st1 | .st2 | .q1 | .q2 | .q3 | .q4 | .sp0 | .sp1 | .sp2 | .sp3 =>
    countPhase (startDet s || stopDet s) (detector s)

/-- `LINE_STEP` (R130). -/
def execLineStep (s : State) : Result := .next (lineStepOp s)

end Sys2Proof.Machine
end

