-- ==== Sys2Proof/Machine/Periodic.lean ====
section
/-! DEFINITION. The periodic steps of the timer source (42_timer_source.md section 1) and of the button classifier
(43_button_classifier.md). -/

namespace Sys2Proof.Machine

/-- A pressed sample (R162) with the threshold `lt`: the first of a hold is `pressed`, the one that reaches the
threshold for the first time in the hold is `long-press`; the counter restarts at every crossing. -/
def pressSample (lt : Byte) (c : PressCounter) : PressCounter :=
  let ev : ButtonEvent := if c.active = 0 ∧ c.longFired = false then .pressed else .none
  if c.active + 1 = lt then
    { active := 0, longFired := true, bev := if c.longFired then ev else .longPress }
  else { active := c.active + 1, longFired := c.longFired, bev := ev }

/-- A released sample (R163): after a hold the event `released` with its `after_long`, and the counter is cleared. -/
def releaseSample (c : PressCounter) : PressCounter :=
  if c.active ≠ 0 ∨ c.longFired = true then
    { active := 0, longFired := false, bev := .released c.longFired }
  else { c with bev := .none }

/-- The pressed branch of the sample step of a button (R162, R164). -/
def samplePressedOp (b : Button) (s : State) : State :=
  withButton b (pressSample (longTicks b s) (buttonOf b s)) s

/-- The released branch of the sample step of a button (R163, R164). -/
def sampleReleasedOp (b : Button) (s : State) : State := withButton b (releaseSample (buttonOf b s)) s

/-- `ButtonSample(b)` (R160, R161). -/
def buttonSample (b : Button) (s : State) : State :=
  if pressed b s then samplePressedOp b s else sampleReleasedOp b s

/-- `Tick()` (R141): the request, then the two samples, Add first. -/
def tickOp (s : State) : State :=
  buttonSample .set (buttonSample .add { s with timer := { s.timer with tickPending := true } })

/-- The second counter step (R142). -/
def secStepOp (s : State) : State :=
  if s.timer.running then
    if s.timer.count.toNat = 2 ^ s.par.cw.val - 1 then
      { s with timer := { s.timer with count := 0, secPending := true } }
    else { s with timer := { s.timer with count := toCount s (s.timer.count + 1) } }
  else s

/-- The tick divider step (R140, R141). -/
def tickDivide (s : State) : State :=
  if s.timer.tdiv = s.par.tickDiv - 1 then tickOp { s with timer := { s.timer with tdiv := 0 } }
  else { s with timer := { s.timer with tdiv := s.timer.tdiv + 1 } }

/-- `TimebaseStep()` (R140): the divider, then the second counter. -/
def tbStepOp (s : State) : State := secStepOp (tickDivide s)

/-- `TB_STEP` (R140). -/
def execTbStep (s : State) : Result := .next (tbStepOp s)
/-- `TICK` (R141). -/
def execTick (s : State) : Result := .next (tickOp s)
/-- `SEC_STEP` (R142). -/
def execSecStep (s : State) : Result := .next (secStepOp s)
/-- `B_SAMPLE_PRESSED` (R162). -/
def execBSamplePressed (b : Button) (s : State) : Result := .next (samplePressedOp b s)
/-- `B_SAMPLE_RELEASED` (R163). -/
def execBSampleReleased (b : Button) (s : State) : Result := .next (sampleReleasedOp b s)

end Sys2Proof.Machine
end

