-- ==== Sys2Proof/Machine/Dispatch.lean ====
section
/-! DEFINITION. One arm per operation of the table, each one call of its meaning. -/

namespace Sys2Proof.Machine

/-- The meaning of every operation. -/
def exec (i : Instr) (s : State) : Host.Outcome State Fault Refusal :=
  match i with
  | .rdCmd => Sys2Proof.Machine.execRdCmd s
  | .rdStatus => Sys2Proof.Machine.execRdStatus s
  | .rdTreq => Sys2Proof.Machine.execRdTreq s
  | .rdTptr => Sys2Proof.Machine.execRdTptr s
  | .rdTlen => Sys2Proof.Machine.execRdTlen s
  | .rdTidx => Sys2Proof.Machine.execRdTidx s
  | .rdTcount => Sys2Proof.Machine.execRdTcount s
  | .rdTstat => Sys2Proof.Machine.execRdTstat s
  | .rdTcnt => Sys2Proof.Machine.execRdTcnt s
  | .rdBev => Sys2Proof.Machine.execRdBev s
  | .rdBcntAdd => Sys2Proof.Machine.execRdBcntAdd s
  | .rdBcntSet => Sys2Proof.Machine.execRdBcntSet s
  | .rdBtn => Sys2Proof.Machine.execRdBtn s
  | .rdRsvd13 => Sys2Proof.Machine.execRdRsvd13 s
  | .rdRsvd14 => Sys2Proof.Machine.execRdRsvd14 s
  | .rdRsvd15 => Sys2Proof.Machine.execRdRsvd15 s
  | .cmdNop => Sys2Proof.Machine.execCmdNop s
  | .cmdSubmit => Sys2Proof.Machine.execCmdSubmit s
  | .cmdTStart => Sys2Proof.Machine.execCmdTStart s
  | .cmdTStop => Sys2Proof.Machine.execCmdTStop s
  | .cmdAckTick => Sys2Proof.Machine.execCmdAckTick s
  | .cmdAckSec => Sys2Proof.Machine.execCmdAckSec s
  | .cmdReserved67 op => Sys2Proof.Machine.execCmdReserved67 op s
  | .cmdReserved815 op => Sys2Proof.Machine.execCmdReserved815 op s
  | .wrStatus d => Sys2Proof.Machine.execWrStatus d s
  | .wrTreq d => Sys2Proof.Machine.execWrTreq d s
  | .wrTptr d => Sys2Proof.Machine.execWrTptr d s
  | .wrTlen d => Sys2Proof.Machine.execWrTlen d s
  | .wrTidx d => Sys2Proof.Machine.execWrTidx d s
  | .wrTcount d => Sys2Proof.Machine.execWrTcount d s
  | .wrTstat d => Sys2Proof.Machine.execWrTstat d s
  | .wrTcnt d => Sys2Proof.Machine.execWrTcnt d s
  | .wrBev d => Sys2Proof.Machine.execWrBev d s
  | .wrBcntAdd d => Sys2Proof.Machine.execWrBcntAdd d s
  | .wrBcntSet d => Sys2Proof.Machine.execWrBcntSet d s
  | .wrBtn d => Sys2Proof.Machine.execWrBtn d s
  | .wrRsvd13 d => Sys2Proof.Machine.execWrRsvd13 d s
  | .wrRsvd14 d => Sys2Proof.Machine.execWrRsvd14 d s
  | .wrRsvd15 d => Sys2Proof.Machine.execWrRsvd15 d s
  | .hSpurious e => Sys2Proof.Machine.execHSpurious e s
  | .hFaultEvArbLost => Sys2Proof.Machine.execHFaultEvArbLost s
  | .hFaultEvBusError => Sys2Proof.Machine.execHFaultEvBusError s
  | .hNackEvAddrNack => Sys2Proof.Machine.execHNackEvAddrNack s
  | .hNackEvDataNack => Sys2Proof.Machine.execHNackEvDataNack s
  | .hStopDone => Sys2Proof.Machine.execHStopDone s
  | .hWriteNextEvAddrAck => Sys2Proof.Machine.execHWriteNextEvAddrAck s
  | .hWriteNextEvDataAck => Sys2Proof.Machine.execHWriteNextEvDataAck s
  | .hWriteDoneEvAddrAck => Sys2Proof.Machine.execHWriteDoneEvAddrAck s
  | .hWriteDoneEvDataAck => Sys2Proof.Machine.execHWriteDoneEvDataAck s
  | .hReadFirst => Sys2Proof.Machine.execHReadFirst s
  | .hReadByte => Sys2Proof.Machine.execHReadByte s
  | .hIgnored e => Sys2Proof.Machine.execHIgnored e s
  | .aStartAddr => Sys2Proof.Machine.execAStartAddr s
  | .aSend => Sys2Proof.Machine.execASend s
  | .aRecv => Sys2Proof.Machine.execARecv s
  | .aAckRecv => Sys2Proof.Machine.execAAckRecv s
  | .aNackStop => Sys2Proof.Machine.execANackStop s
  | .aStop => Sys2Proof.Machine.execAStop s
  | .aNone => Sys2Proof.Machine.execANone s
  | .aReserved7 => Sys2Proof.Machine.execAReserved7 s
  | .lineStep => Sys2Proof.Machine.execLineStep s
  | .tbStep => Sys2Proof.Machine.execTbStep s
  | .tick => Sys2Proof.Machine.execTick s
  | .secStep => Sys2Proof.Machine.execSecStep s
  | .bSamplePressed b => Sys2Proof.Machine.execBSamplePressed b s
  | .bSampleReleased b => Sys2Proof.Machine.execBSampleReleased b s
  | .handler => Sys2Proof.Machine.execHandler s

end Sys2Proof.Machine
end

