-- ==== Sys2Proof/Machine/Step.lean ====
section
/-! DEFINITION. One step: one stage of the clock cycle (R6). A stage whose agent steps runs that agent's operation, one
atomic step (R5); then the next stage comes. -/

namespace Sys2Proof.Machine

/-- One step of the machine. -/
def step (s : State) : Host.Outcome State Fault Refusal :=
  match s.io.stage with
  | .sample => .next (sampleInputs s)
  | .timebase | .line | .handler | .host =>
    match currentInstr s with
    | none => .next (advance s)
    | some i => onNext advance (exec i s)

/-- `s` at its host stage with the access word `w` on the port, so that the next step runs it (log 16). -/
def State.withFetchWord (s : State) (_nbits w : Nat) : State :=
  { s with io := { s.io with stage := .host, cur := { s.io.cur with access := some (BitVec.ofNat 32 w) } } }

end Sys2Proof.Machine
end

