-- ==== Sys2Proof/Machine/HostApp.lean ====
section
/-! DEFINITION. The host beside the block (44_host_application.md): the lines of a host program (R76), the driver
procedures (R177 to R179), the application state machine (R180 to R189), and the host as an agent that makes at most one
access a cycle: foreground loop and power mode coordinator (R175, R176, R193), the tick handler and the second handler in
their order (R186, R191), display updates (R190), polling and recovery (R178, R192). Nothing here is hardware of the block
and no step of the machine calls it (00_scope.md section 3; log 20): it is the environment R2 gives the block.
`HostSide.inputs` lays what it does in a cycle over the other inputs of that cycle. -/

namespace Sys2Proof.Machine

-- Accesses and procedures (R76, R177, R179) ------------------------------------------------------------------------

/-- `WR idx, v`. -/
def wrWord (idx : BitVec 4) (v : Reg) : AccessWord := encodeWrite idx v
/-- `RD idx`. -/
def rdWord (idx : BitVec 4) : AccessWord := encodeRead idx
/-- `CMD op`. -/
def cmdWord (op : BitVec 4) : AccessWord := encodeCommand op

/-- Steps (2) and (3) of the submit procedure (R177). -/
def requestWords (a : BitVec 7) (d : Bool) (p : BufAddr) (n : BufLen) : List AccessWord :=
  [wrWord 2 ((bit d ++ a).setWidth 16), wrWord 3 p, wrWord 4 n, cmdWord 1]

/-- `SUBMIT a, d, p, n` (R76, R177): five words, the last one reads the result. -/
def submitWords (a : BitVec 7) (d : Bool) (p : BufAddr) (n : BufLen) : List AccessWord :=
  requestWords a d p n ++ [rdWord 1]

/-- The stores of bytes from address `p` on, each to the next address. -/
def storesFrom (p : BufAddr) : List Byte → List (BufAddr × Byte)
  | [] => []
  | b :: rest => (p, b) :: storesFrom (p + 1) rest

/-- Step (1) of the submit procedure (R177): a write stores its bytes at `p .. p + n - 1`, a read stores nothing. -/
def submitStores (d : Bool) (p : BufAddr) (bytes : List Byte) : List (BufAddr × Byte) :=
  if d then [] else storesFrom p bytes

/-- `START n` (R76, R179): any 16-bit `n`; TCOUNT truncates it (R143). -/
def startWords (n : Reg) : List AccessWord := [wrWord 6 n, cmdWord 2]

/-- `STOP` (R76, R179). -/
def stopWords : List AccessWord := [cmdWord 3, rdWord 6]

/-- One repetition of `POLL` (R76, R178). -/
def pollWord : AccessWord := rdWord 1

/-- `POLL` goes on after a repetition that returned `v` (R76). -/
def pollAgain (v : Reg) : Bool := v.getLsbD 0

/-- `sub_acc` in a STATUS value: the result of the submit procedure (R177). -/
def statusAccepted (v : Reg) : Bool := v.getLsbD 2

/-- The poll (R178): the outcome code once the transfer is over. -/
def statusOutcome (v : Reg) : Option (BitVec 2) := if pollAgain v then none else some (v.extractLsb' 3 2)

/-- The lines of a host program (R76). -/
inductive HostLine where
  | wr (idx : BitVec 4) (v : Reg)
  | rd (idx : BitVec 4)
  | cmd (op : BitVec 4)
  | submit (a : BitVec 7) (d : Bool) (p : BufAddr) (n : BufLen)
  | poll
  | start (n : Reg)
  | stop
  | idle (n : Nat)
  | pulse (n : Nat)
deriving DecidableEq, Repr

/-- What a host program does in one cycle. -/
inductive HostCycle where
  | access (w : AccessWord)
  /-- A repetition of `POLL`: the answer decides whether another one follows. -/
  | poll
  | idle
  | pulse
deriving DecidableEq, Repr

/-- The expansion of a line (R76): one cycle for each access, `n` cycles for `IDLE n` and `PULSE n`, and the first
repetition of `POLL`. -/
def HostLine.cycles : HostLine → List HostCycle
  | .wr idx v => [.access (wrWord idx v)]
  | .rd idx => [.access (rdWord idx)]
  | .cmd op => [.access (cmdWord op)]
  | .submit a d p n => (submitWords a d p n).map .access
  | .poll => [.poll]
  | .start n => (startWords n).map .access
  | .stop => stopWords.map .access
  | .idle n => List.replicate n .idle
  | .pulse n => List.replicate n .pulse

/-- The access of a cycle; a directive makes none. -/
def HostCycle.access? : HostCycle → Option AccessWord
  | .access w => some w
  | .poll => some pollWord
  | .idle => none
  | .pulse => none

/-- The inputs of a cycle over the other inputs `env`; `PULSE` gives a timebase pulse (R76). -/
def HostCycle.inputs (env : Stimulus) (c : HostCycle) : Stimulus :=
  match c with
  | .access _ | .poll | .idle => { env with access := c.access? }
  | .pulse => { env with access := c.access?, tbEn := true }

/-- A host program on its way: the cycles still to come and the values its reads returned, oldest first. -/
structure HostProgram where
  todo : List HostCycle
  answers : List Reg
deriving DecidableEq, Repr

/-- A program at its first line. -/
def HostProgram.start (lines : List HostLine) : HostProgram := ⟨lines.flatMap HostLine.cycles, []⟩

/-- What is still to come after a cycle with the port's answer: `POLL` is repeated until an answer's bit 0 reads 0
(R76). -/
def HostCycle.after (c : HostCycle) (answer : Option Reg) : List HostCycle :=
  match c, answer with
  | .poll, some v => if pollAgain v then [.poll] else []
  | .poll, none => [.poll]
  | .access _, _ => []
  | .idle, _ => []
  | .pulse, _ => []

/-- The program after a cycle with the port's answer. -/
def HostProgram.next (answer : Option Reg) (p : HostProgram) : HostProgram :=
  match p.todo with
  | [] => p
  | c :: rest => { todo := c.after answer ++ rest, answers := p.answers ++ answer.toList }

/-- The outcome of a `POLL` just ended (R76): bits 4:3 of the last value. -/
def HostProgram.outcome (p : HostProgram) : Option (BitVec 2) := p.answers.getLast?.bind statusOutcome

-- Application (R180 to R189) ---------------------------------------------------------------------------------------

/-- `phase` (R180). -/
inductive AppPhase where
  | idle | running | paused | finished
deriving DecidableEq, Repr

/-- What the application keeps (R180): TimerState, the recorded count, the indicator LED and the blink setting. -/
structure App where
  remaining : Nat
  preset : Nat
  phase : AppPhase
  recorded : Count
  led : Bool
  blink : Blink
deriving DecidableEq, Repr

/-- At boot (R180). -/
def App.boot : App :=
  { remaining := 0, preset := 0, phase := .idle, recorded := 0, led := false, blink := .off }

/-- The triggers of the transition table (44_host_application.md section 3). -/
inductive Trigger where
  | addShort | addLong | setShort | setUltra | second
deriving DecidableEq, Repr

/-- `add(k)`: `remaining <- min(remaining + k, MAX_SECONDS)`. -/
def App.addSeconds (hp : HostParams) (k : Nat) (a : App) : App :=
  { a with remaining := min (a.remaining + k) hp.maxSeconds }

/-- Add short and long (R181, R184); no action in paused or finished (D40). -/
def App.onAdd (hp : HostParams) (k : Nat) (a : App) : App :=
  match a.phase with
  | .idle | .running => a.addSeconds hp k
  | .paused | .finished => a

/-- Set short (R182, R183, R185, R187, R188); the count that R185 records is read after it (`HostTask.recordCount`). -/
def App.onSetShort (a : App) : App :=
  match a.phase with
  | .idle =>
    if a.remaining = 0 then { a with led := !a.led } else { a with preset := a.remaining, phase := .running }
  | .running => { a with blink := .oneHz, phase := .paused }
  | .paused => { a with blink := .off, phase := .running }
  | .finished => { a with remaining := a.preset, blink := .off, led := false, phase := .idle }

/-- The second interrupt (R186); outside running it has no action. -/
def App.onSecond (a : App) : App :=
  match a.phase with
  | .running =>
    if a.remaining - 1 = 0 then { a with remaining := 0, blink := .twoHz, led := true, phase := .finished }
    else { a with remaining := a.remaining - 1 }
  | .idle | .paused | .finished => a

/-- Set ultra-long-press (R189). -/
def App.onSetUltra (a : App) : App :=
  { a with preset := 0, remaining := 0, blink := .off, led := false, phase := .idle }

/-- The application's transitions (R181 to R189). -/
def appStep (hp : HostParams) (t : Trigger) (a : App) : App :=
  match t with
  | .addShort => a.onAdd hp hp.addShort
  | .addLong => a.onAdd hp hp.addLong
  | .setShort => a.onSetShort
  | .setUltra => a.onSetUltra
  | .second => a.onSecond

/-- A transition changes the displayed time (R190). -/
def displayChanges (hp : HostParams) (t : Trigger) (a : App) : Bool :=
  decide ((appStep hp t a).remaining ≠ a.remaining)

/-- A transition changes the blink setting (R185 to R189). DESIGN CHOICE (log 26): where R189 clears a blink that is off
already, no blink command is sent. -/
def blinkChanges (hp : HostParams) (t : Trigger) (a : App) : Bool := decide ((appStep hp t a).blink ≠ a.blink)

-- Display (R190) ---------------------------------------------------------------------------------------------------

/-- The four digits of minutes and seconds (R190). -/
def displayDigits (remaining : Nat) : Nat × Nat × Nat × Nat :=
  (remaining / 600, (remaining / 60) % 10, (remaining % 60) / 10, remaining % 10)

/-- The bytes of a display update: one command and four bitmaps, of the excluded collaborators. -/
def displayBytes (remaining : Nat) (colon : Bool) : List Byte :=
  let d := displayDigits remaining
  (List.finRange 5).map (Config.displayByte d.1 d.2.1 d.2.2.1 d.2.2.2 colon)

/-- The two transfers the application makes (R190). -/
inductive Update where
  /-- The display update. -/
  | display
  /-- A blink setting. -/
  | blink
deriving DecidableEq, Repr

/-- The bytes of a transfer: 5 of a display update, 1 of a blink setting (R190). -/
def updateBytes (u : Update) (a : App) (colon : Bool) : List Byte :=
  match u with
  | .display => displayBytes a.remaining colon
  | .blink => [Config.blinkByte a.blink]

-- The host as an agent (R175) --------------------------------------------------------------------------------------

/-- The sleep depths of R176. -/
inductive SleepMode where
  | idleSleep | powerDown
deriving DecidableEq, Repr

/-- The coordinator (R176): idle sleep while a transfer is pending, power-down otherwise. -/
def sleepMode (pending : Bool) : SleepMode := if pending then .idleSleep else .powerDown

/-- Where the host is in its foreground loop (R193): consulting the coordinator, asleep, or in a handler. -/
inductive HostMode where
  | consult | asleep (m : SleepMode) | handling
deriving DecidableEq, Repr

/-- What a handler still has to do. Each takes one cycle, so no cycle has more than one access (R175). -/
inductive HostTask where
  /-- An access whose answer does not matter. -/
  | access (w : AccessWord)
  /-- Stores into the buffer space (R177 step 1). -/
  | store (l : List (BufAddr × Byte))
  /-- `RD BEV`, and the transitions of its events (R191). -/
  | events
  /-- One transition of the application. -/
  | trigger (t : Trigger)
  /-- `RD TCOUNT` into the recorded count (R179, R185). -/
  | recordCount
  /-- Blink the colon (R190). -/
  | colon
  /-- Submit a transfer whose content is not up to date (R190, R192). -/
  | refresh (u : Update)
  /-- `RD STATUS` for the result of a submit (R177 step 4). -/
  | result (u : Update)
  /-- `RD STATUS` for the outcome of the transfer in flight (R178). -/
  | poll
deriving DecidableEq, Repr

/-- The host. -/
structure HostSide where
  app : App
  mode : HostMode
  /-- The rest of the handler. -/
  tasks : List HostTask
  /-- The accepted transfer whose outcome has not been polled (R178). -/
  inFlight : Option Update
  /-- The display does not show the application's time (R190, R192). -/
  displayStale : Bool
  /-- The display does not have the application's blink setting. -/
  blinkStale : Bool
  /-- The colon is lit. -/
  colon : Bool
  /-- Ticks since the colon changed. -/
  ticks : Nat
deriving DecidableEq, Repr

/-- The host at boot (R180, R193). DESIGN CHOICE (log 25): boot is no transition that changes the displayed time, so the
display counts as up to date and no update is sent until a transition asks for one. R234: TT does not state it, and a host
model may omit the boot update. -/
def HostSide.boot : HostSide :=
  { app := App.boot, mode := .consult, tasks := [], inFlight := none, displayStale := false, blinkStale := false
    colon := true, ticks := 0 }

/-- What the host sees of the block in a cycle: the answer to its read, the requests, the port `pending`. -/
structure HostSees where
  answer : Option Reg
  irqTick : Bool
  irqSecond : Bool
  pending : Bool
deriving DecidableEq, Repr

/-- What the block shows at the end of a cycle (R60, R206, R207, R221). -/
def State.shows (s : State) : HostSees := ⟨s.io.rdData, irqTick s, irqSecond s, pendingPort s⟩

/-- The trigger of an Add event code in BEV (44_host_application.md section 3): codes 1 and 6 trigger nothing. -/
def addTrigger (code : BitVec 3) : List Trigger :=
  if code = 2 then [.addShort] else if code = 3 then [.addLong] else []

/-- The trigger of a Set event code in BEV. -/
def setTrigger (code : BitVec 3) : List Trigger :=
  if code = 2 then [.setShort] else if code = 3 then [.setUltra] else []

/-- The triggers of a value of BEV (R191), in the order the host parameter `HOST_ORDER` gives. -/
def bevTriggers (order : HostOrder) (v : Reg) : List Trigger :=
  match order with
  | .addFirst => addTrigger (v.extractLsb' 0 3) ++ setTrigger (v.extractLsb' 4 3)
  | .setFirst => setTrigger (v.extractLsb' 4 3) ++ addTrigger (v.extractLsb' 0 3)

/-- The tick handler (R191): acknowledge, read BEV and make its transitions, refresh the display and keep up its colon and
blink setting, poll. -/
def tickHandler : List HostTask :=
  [.access (cmdWord 4), .events, .colon, .refresh .display, .refresh .blink, .poll]

/-- The second handler (R186): acknowledge, make the transition, and issue its display update (R190). DESIGN CHOICE
(log 26): the blink command of the finishing second is left to a later tick handler's refresh. -/
def secondHandler : List HostTask :=
  [.access (cmdWord 5), .trigger .second, .refresh .display]

/-- The accesses of a transition made from `a` (R181 to R189). -/
def triggerTasks (t : Trigger) (a : App) : List HostTask :=
  match t, a.phase with
  | .addShort, _ => []
  | .addLong, _ => []
  | .setShort, .idle => if a.remaining = 0 then [] else (startWords 1).map .access
  | .setShort, .running => [.access (cmdWord 3), .recordCount]
  | .setShort, .paused => (startWords a.recorded).map .access
  | .setShort, .finished => []
  | .setUltra, _ => [.access (cmdWord 3)]
  | .second, .running => if a.remaining - 1 = 0 then [.access (cmdWord 3)] else []
  | .second, .idle => []
  | .second, .paused => []
  | .second, .finished => []

/-- The submit procedure (R177) for a write of `bytes`. -/
def submitTasks (hp : HostParams) (u : Update) (bytes : List Byte) : List HostTask :=
  .store (submitStores false hp.displayBuffer bytes) ::
    (requestWords hp.displayAddr false hp.displayBuffer (BitVec.ofNat 16 bytes.length)).map .access ++ [.result u]

/-- The access a task makes in its cycle (R175). A poll reads only while a transfer of the host's own is in flight, so no
outcome is read that belongs to none (R94). -/
def HostSide.taskAccess (t : HostTask) (h : HostSide) : Option AccessWord :=
  match t with
  | .access w => some w
  | .events => some (rdWord 9)
  | .recordCount => some (rdWord 6)
  | .result _ => some (rdWord 1)
  | .poll => if h.inFlight.isSome then some pollWord else none
  | .store _ | .trigger _ | .colon | .refresh _ => none

/-- The stores a task makes in its cycle. -/
def HostTask.stores : HostTask → List (BufAddr × Byte)
  | .store l => l
  | .access _ | .events | .trigger _ | .recordCount | .colon | .refresh _ | .result _ | .poll => []

/-- The host's access in a cycle: a handler's current task's; none in the foreground loop (R193). -/
def HostSide.access (h : HostSide) : Option AccessWord :=
  match h.mode, h.tasks with
  | .handling, t :: _ => h.taskAccess t
  | .handling, [] => none
  | .consult, _ => none
  | .asleep _, _ => none

/-- The host's stores in a cycle. -/
def HostSide.stores (h : HostSide) : List (BufAddr × Byte) :=
  match h.mode, h.tasks with
  | .handling, t :: _ => t.stores
  | .handling, [] => []
  | .consult, _ => []
  | .asleep _, _ => []

/-- `pd` as the host drives it (R176): 1 in power-down, 0 in idle sleep and while awake, so before any handler runs. -/
def HostSide.pd (h : HostSide) : Bool :=
  match h.mode with
  | .asleep .powerDown => true
  | .asleep .idleSleep => false
  | .consult => false
  | .handling => false

/-- The inputs of a cycle: the host's part over the other inputs `env`. -/
def HostSide.inputs (env : Stimulus) (h : HostSide) : Stimulus :=
  { env with pd := h.pd, access := h.access, bufWrites := h.stores }

/-- Whether what a transfer carries is out of date. -/
def HostSide.stale (u : Update) (h : HostSide) : Bool :=
  match u with
  | .display => h.displayStale
  | .blink => h.blinkStale

/-- Set whether what a transfer carries is out of date. -/
def HostSide.setStale (u : Update) (b : Bool) (h : HostSide) : HostSide :=
  match u with
  | .display => { h with displayStale := b }
  | .blink => { h with blinkStale := b }

/-- A transition of the application with its accesses; a change of the displayed time or of the blink setting asks for
its transfer (R190). -/
def HostSide.makeTransition (hp : HostParams) (t : Trigger) (h : HostSide) : HostSide :=
  { h with
    app := appStep hp t h.app
    tasks := triggerTasks t h.app ++ h.tasks
    displayStale := displayChanges hp t h.app || h.displayStale
    blinkStale := blinkChanges hp t h.app || h.blinkStale }

/-- The colon blinks once per second while running and is lit otherwise (R190). DESIGN CHOICE (log 26): the host toggles
it every `colonTicks` ticks, and a change asks for a display update. -/
def HostSide.blinkColon (hp : HostParams) (h : HostSide) : HostSide :=
  if h.app.phase = .running then
    if h.ticks + 1 < hp.colonTicks then { h with ticks := h.ticks + 1 }
    else { h with ticks := 0, colon := !h.colon, displayStale := true }
  else { h with ticks := 0, colon := true, displayStale := !h.colon || h.displayStale }

/-- Submit a transfer whose content is out of date, unless the outcome of an earlier one is still to be polled (R190,
R192; log 26). -/
def HostSide.refresh (hp : HostParams) (u : Update) (h : HostSide) : HostSide :=
  if h.stale u = true ∧ h.inFlight = none then
    { h with tasks := submitTasks hp u (updateBytes u h.app h.colon) ++ h.tasks }
  else h

/-- The result of a submit (R177 step 4): accepted, the transfer is in flight; rejected, its content stays out of date, to
be submitted again at a later tick (R192). -/
def HostSide.submitResult (u : Update) (status : Reg) (h : HostSide) : HostSide :=
  if statusAccepted status then { h.setStale u false with inFlight := some u } else h.setStale u true

/-- A poll (R178): once the transfer is over its outcome is taken; one that is not `success` leaves the display out of
date (R192). -/
def HostSide.pollResult (status : Reg) (h : HostSide) : HostSide :=
  match h.inFlight, statusOutcome status with
  | none, _ => h
  | some _, none => h
  | some u, some o => { h.setStale u (decide (o ≠ 0) || h.stale u) with inFlight := none }

/-- What a task does once its access, if any, is answered. -/
def HostSide.finishTask (hp : HostParams) (o : HostSees) (t : HostTask) (h : HostSide) : HostSide :=
  match t, o.answer with
  | .access _, _ => h
  | .store _, _ => h
  | .trigger t, _ => h.makeTransition hp t
  | .colon, _ => h.blinkColon hp
  | .refresh u, _ => h.refresh hp u
  | .events, some v => { h with tasks := (bevTriggers hp.order v).map .trigger ++ h.tasks }
  | .recordCount, some v => { h with app := { h.app with recorded := v } }
  | .result u, some v => h.submitResult u v
  | .poll, some v => h.pollResult v
  | .events, none => h
  | .recordCount, none => h
  | .result _, none => h
  | .poll, none => h

/-- The handler that the requests wake the host for; none while neither is up. Which runs first when both are is the
host's choice (R210; log 26). -/
def HostSees.handler (hp : HostParams) (o : HostSees) : Option (List HostTask) :=
  if hp.secondFirst then
    if o.irqSecond then some secondHandler else if o.irqTick then some tickHandler else none
  else
    if o.irqTick then some tickHandler else if o.irqSecond then some secondHandler else none

/-- The host from one cycle to the next (R176, R193): it consults the coordinator and sleeps, a request wakes it into that
request's handler, the handler runs to its end (R175), and the loop goes on. -/
def HostSide.next (hp : HostParams) (o : HostSees) (h : HostSide) : HostSide :=
  match h.mode, h.tasks with
  | .consult, _ => { h with mode := .asleep (sleepMode o.pending) }
  | .asleep m, _ =>
    match o.handler hp with
    | none => { h with mode := .asleep m }
    | some l => { h with mode := .handling, tasks := l }
  | .handling, [] => { h with mode := .consult }
  | .handling, t :: rest => { h with tasks := rest }.finishTask hp o t

end Sys2Proof.Machine
end

