-- ==== Sys2Proof/Safety.lean ====
section
/-! DEFINITION. The terms the claims are stated in: the invariants of 10_state.md section 8 (R32) with what makes them
inductive, the ranges of the counters, the line levels of each phase, and the byte-level environment of R99. -/

namespace Sys2Proof.Machine

/-- The event in the latch is one the sequencer's state expects, in the phase its raising leaves (R70, R99, R122, R126,
R129). -/
def EventFits (s : State) : Prop :=
  ((s.link.evCode = evArbLost ∨ s.link.evCode = evBusError) ∧ s.line.ph = .idle) ∨
  ((s.link.evCode = evAddrAck ∨ s.link.evCode = evAddrNack) ∧ s.line.ph = .hold ∧ s.seq.state = .addressing) ∨
  ((s.link.evCode = evDataAck ∨ s.link.evCode = evDataNack) ∧ s.line.ph = .hold ∧ s.seq.state = .writing
    ∧ s.seq.dir = false) ∨
  (s.link.evCode = evDataRcvd ∧ s.line.ph = .hold ∧ s.seq.state = .reading ∧ s.seq.dir = true) ∨
  (s.link.evCode = evStopDone ∧ s.line.ph = .idle ∧ s.seq.state = .stopping)

/-- The action in the latch is one the sequencer's state has issued, and the phase is the one it is taken in
(R114, R115). -/
def ActionFits (s : State) : Prop :=
  (s.link.actCode = actStartAddr ∧ s.line.ph = .idle ∧ s.seq.state = .addressing) ∨
  (s.link.actCode = actSend ∧ s.line.ph = .hold ∧ s.seq.state = .writing ∧ s.seq.dir = false) ∨
  ((s.link.actCode = actRecv ∨ s.link.actCode = actAckRecv) ∧ s.line.ph = .hold ∧ s.seq.state = .reading
    ∧ s.seq.dir = true) ∨
  (s.link.actCode = actNackStop ∧ s.line.ph = .hold ∧ s.seq.state = .stopping ∧ s.seq.dir = true) ∨
  (s.link.actCode = actStop ∧ s.line.ph = .hold ∧ s.seq.state = .stopping)

/-- A cell of the unit is part of what the sequencer's state waits for. -/
def UnitFits (s : State) : Prop :=
  match s.line.unit with
  | .addr => s.seq.state = .addressing
  | .tx => s.seq.state = .writing ∧ s.seq.dir = false
  | .rx => s.seq.state = .reading ∧ s.seq.dir = true
  | .ack => s.seq.state = .reading ∧ s.seq.dir = true
  | .nack => s.seq.state = .stopping ∧ s.seq.dir = true

/-- The running phase is part of what the sequencer's state waits for. -/
def PhaseFits (s : State) : Prop :=
  match s.line.ph with
  | .st0 | .st1 | .st2 => s.seq.state = .addressing
  | .q1 | .q2 | .q3 | .q4 => UnitFits s
  | .sp0 | .sp1 | .sp2 | .sp3 => s.seq.state = .stopping
  | .idle | .hold => False

/-- R32 with what makes it inductive: sequencer, latches and line engine agree on where the transfer stands. -/
structure Consistent (s : State) : Prop where
  /-- R32 (d). -/
  registered : s.seq.bufValid = s.seq.pending
  /-- R32 (e). -/
  idle_iff : s.seq.state = .idle ↔ s.seq.pending = false
  /-- R32 (f). -/
  outcome_iff : s.seq.outcome = .inProgress ↔ s.seq.pending = true
  /-- `final` is a terminal outcome (R10). -/
  final_terminal : s.seq.finalOutcome ≠ .inProgress
  /-- R12. -/
  cursor : s.seq.idx ≤ s.seq.length
  /-- With no transfer nothing is latched and the line engine is idle. -/
  quiet : s.seq.pending = false → s.link.evPending = false ∧ s.link.actValid = false ∧ s.line.ph = .idle
  /-- During a transfer exactly one of the three holds it: the event latch, the action latch, a running phase. -/
  engaged : s.seq.pending = true →
    (s.link.evPending = true ∧ s.link.actValid = false ∧ EventFits s) ∨
    (s.link.evPending = false ∧ s.link.actValid = true ∧ ActionFits s) ∨
    (s.link.evPending = false ∧ s.link.actValid = false ∧ PhaseFits s)
  /-- An event pending at the start of the cycle is still pending before the handler stage is over. -/
  early : s.io.evAtStart = true → (s.io.stage = .timebase ∨ s.io.stage = .line ∨ s.io.stage = .handler) →
    s.link.evPending = true

/-- Every element whose width is a parameter holds a value of that width (R3, R11, R15, R21, R24). -/
structure FieldsInWidth (s : State) : Prop where
  /-- `CW`. -/
  count : s.timer.count.toNat < 2 ^ s.par.cw.val
  /-- `CW`. -/
  tcount : s.timer.tcount.toNat < 2 ^ s.par.cw.val
  /-- `AW`. -/
  bufStart : s.seq.bufStart.toNat < 2 ^ s.par.aw.val
  /-- `AW`. -/
  tptr : s.seq.tptr.toNat < 2 ^ s.par.aw.val
  /-- `LW`. -/
  length : s.seq.length.toNat < 2 ^ s.par.lw.val
  /-- `LW`. -/
  idx : s.seq.idx.toNat < 2 ^ s.par.lw.val
  /-- `LW`. -/
  tlen : s.seq.tlen.toNat < 2 ^ s.par.lw.val

/-- The counters stay in their ranges (R17, R22, R27, R166), and the elements in their widths. -/
def CountersInRange (s : State) : Prop :=
  s.line.qcnt < s.par.qdiv ∧ s.line.bitcnt ≤ 8 ∧ s.timer.tdiv < s.par.tickDiv ∧
    s.bAdd.active < s.par.longAdd ∧ s.bSet.active < s.par.longSet ∧ FieldsInWidth s

/-- The level of `scl_o` in each phase (R114 to R126). -/
def phaseScl : Phase → Bool
  | .idle | .st0 | .st1 | .q3 | .q4 | .sp2 | .sp3 => true
  | .st2 | .q1 | .q2 | .hold | .sp0 | .sp1 => false

/-- The level of `sda_o` in the phases that fix it (R114 to R126): the others carry a cell. -/
def phaseSda : Phase → Option Bool
  | .idle | .st0 | .sp3 => some true
  | .st1 | .st2 | .sp1 | .sp2 => some false
  | .q1 | .q2 | .q3 | .q4 | .hold | .sp0 => none

/-- The line outputs are those of the phase. -/
def LinesFollowPhase (s : State) : Prop :=
  s.line.sclO = phaseScl s.line.ph ∧ ∀ b, phaseSda s.line.ph = some b → s.line.sdaO = b

/-- `d` is `s` after the detector has seen this cycle's wires (R111): a stop condition clears `busy_det`, a start
condition sets it, anything else leaves it, and the levels are kept. -/
def Observed (s d : State) : Prop :=
  d = { s with line := { s.line with busyDet := d.line.busyDet, sdaQ := s.io.sdaIn, sclQ := s.io.sclIn } } ∧
  d.line.busyDet =
    (if s.line.sclQ = true ∧ s.io.sclIn = true ∧ s.line.sdaQ = false ∧ s.io.sdaIn = true then false
    else if s.line.sclQ = true ∧ s.io.sclIn = true ∧ s.line.sdaQ = true ∧ s.io.sdaIn = false then true
    else s.line.busyDet)

/-- What a read of address `a` gives after the host's stores of a cycle: the last byte stored there, or what `m` gives
(R42). -/
def readAfterStores (l : List (BufAddr × Byte)) (a : BufAddr) (m : Memory) : Byte :=
  (((l.filter fun q => decide (q.1 = a)).map Prod.snd).getLast?).getD (memRead a m)

/-- The line engine's part of one byte-level exchange (R99): the latched action is gone, `e` is raised, and with
`EV_DATA_RCVD` the data register holds the byte received. -/
def deliver (e : BitVec 4) (byte : Byte) (s : State) : State :=
  raiseEvent e
    { s with link := { s.link with actValid := false, dreg := if e = evDataRcvd then byte else s.link.dreg } }

/-- A run of byte-level exchanges: each event is delivered and the sequencer's handler step runs. -/
def serve : List (BitVec 4 × Byte) → State → Result
  | [], s => .next s
  | (e, byte) :: rest, s =>
    match exec .handler (deliver e byte s) with
    | .next t => serve rest t
    | .fault r => .fault r
    | .refused r => .refused r

/-- The same operation `n` times. -/
def execTimes : Nat → Instr → State → Result
  | 0, _, s => .next s
  | n + 1, i, s =>
    match exec i s with
    | .next t => execTimes n i t
    | .fault r => .fault r
    | .refused r => .refused r

/-- One clock cycle with the inputs `x`, from the sampling stage: five steps, one in a reset cycle. -/
def runCycle (x : Stimulus) (s : State) : Result :=
  Host.Core.run core (if x.rst then 1 else 5) { s with io := { s.io with script := x :: s.io.script } }

/-- A host program (R76) run on the block, a cycle for each element of `envs`, the other inputs of that cycle; it stops
where the program is over. -/
def runProgram : List Stimulus → HostProgram → State → Host.Outcome (HostProgram × State) Fault Refusal
  | [], p, s => .next (p, s)
  | env :: rest, p, s =>
    match p.todo with
    | [] => .next (p, s)
    | c :: _ =>
      match runCycle (c.inputs env) s with
      | .next t => runProgram rest (p.next t.io.rdData) t
      | .fault e => .fault e
      | .refused e => .refused e

/-- The handler step, or one of its arms (R93). -/
def IsHandlerOp (i : Instr) : Prop := i = .handler ∨ ∃ a : Arm, i = a.instr

/-- The line step, or one of the actions it takes (R71, R130). -/
def IsLineOp (i : Instr) : Prop :=
  i = .lineStep ∨ i ∈ [Instr.aStartAddr, .aSend, .aRecv, .aAckRecv, .aNackStop, .aStop, .aNone, .aReserved7]

/-- The branch of a pressed sample (R162), from `c` to `d`, with the threshold `lt`. -/
def PressedSample (lt : Byte) (c d : PressCounter) : Prop :=
  (c.active + 1 = lt → d.active = 0 ∧ d.longFired = true ∧
    (c.longFired = false → d.bev = .longPress) ∧ (c.longFired = true → d.bev = .none)) ∧
  (c.active + 1 ≠ lt → d.active = c.active + 1 ∧ d.longFired = c.longFired ∧
    d.bev = if c.active = 0 ∧ c.longFired = false then .pressed else .none)

/-- The branch of a released sample (R163), from `c` to `d`. -/
def ReleasedSample (c d : PressCounter) : Prop :=
  d.active = 0 ∧ d.longFired = false ∧
    (c.active ≠ 0 ∨ c.longFired = true → d.bev = .released c.longFired) ∧
    (c.active = 0 → c.longFired = false → d.bev = .none)

/-- Every element of the block at its reset value (R31), at the start of a cycle; parameters, buffer space and inputs to
come are arbitrary. -/
def BlockAtReset (s : State) : Prop :=
  s.seq = Sequencer.reset ∧ s.link = Latches.reset ∧ s.line = LineEngine.reset ∧ s.timer = Timer.reset ∧
    s.bAdd = PressCounter.reset ∧ s.bSet = PressCounter.reset ∧ s.io.stage = .sample

/-- The states steps lead to from the block's reset state, under any inputs and parameters. -/
inductive Reachable : State → Prop where
  | start (s : State) (h : BlockAtReset s) : Reachable s
  | step (s t : State) (h : Reachable s) (k : step s = .next t) : Reachable t

end Sys2Proof.Machine
end

