-- ==== Sys2Proof/Certificates/Slice0/Obligations.lean ====
section
/-! DEFINITION. The statements about the block for the provers. Each one's docstring names the rules it comes from; its
entry in OBLIGATIONS.json says whether it states a rule whole or is derived. -/

open Sys2Proof Sys2Proof.Machine

-- Encoding ---------------------------------------------------------------------------------------------------------

/-- Decoding the selector of any well-formed operation gives it back, every operand at every value (R60, R62, R70, R71,
R77, R93). -/
def Obligations.DecodeOfEncodeGivesTheInstruction : Prop :=
  ∀ i : Instr, i.wellFormed = true → decode (encode i) = .ok i

/-- The 39 access rows of the table are pairwise disjoint and cover every access word, and the decoder reads from a word
the operation of its one row (R77). -/
def Obligations.EveryAccessWordHasExactlyItsTableRow : Prop :=
  ∀ w : AccessWord, ∃ r ∈ accessRows, w &&& r.2.2 = r.2.1 ∧ (decodeAccess w).mnemonic = r.1 ∧
    ∀ q ∈ accessRows, w &&& q.2.2 = q.2.1 → q = r

/-- The words of `WR idx, v`, `RD idx` and `CMD op` are the numbers R60, R62 and R76 give, each decodes to the access of
that index with that data, and the ignored fields do not matter: bits 30:20 of every word and bits 15:0 of a read (R60),
bits 15:4 of a write to CMD (R62). -/
def Obligations.AccessWordsAreTheSpecsNumbers : Prop :=
  (∀ (idx : BitVec 4) (v : Reg),
    encodeWrite idx v = 0x80000000#32 ||| (idx.setWidth 32 <<< 16) ||| v.setWidth 32 ∧
    decodeAccess (encodeWrite idx v) = decodeWrite idx v) ∧
  (∀ idx : BitVec 4,
    encodeRead idx = idx.setWidth 32 <<< 16 ∧ decodeAccess (encodeRead idx) = decodeRead idx) ∧
  (∀ op : BitVec 4,
    encodeCommand op = 0x80000000#32 ||| op.setWidth 32 ∧ decodeAccess (encodeCommand op) = decodeCommand op) ∧
  (∀ w v : AccessWord, w &&& 0x800FFFFF#32 = v &&& 0x800FFFFF#32 → decodeAccess w = decodeAccess v) ∧
  (∀ w v : AccessWord, w.getLsbD 31 = false → w &&& 0x800F0000#32 = v &&& 0x800F0000#32 →
    decodeAccess w = decodeAccess v) ∧
  (∀ w v : AccessWord, w &&& 0x800F0000#32 = 0x80000000#32 → w &&& 0x800F000F#32 = v &&& 0x800F000F#32 →
    decodeAccess w = decodeAccess v)

/-- Every access word of 95_test_vectors.md section 2.1's vectors E1 to E6, E14, E15 and E17 decodes to its operation. -/
def Obligations.WordsOfTheTestVectorsDecode : Prop :=
  decodeAccess 0x80020038#32 = .wrTreq 0x38 ∧ decodeAccess 0x80030100#32 = .wrTptr 0x100 ∧
  decodeAccess 0x80040005#32 = .wrTlen 5 ∧ decodeAccess 0x80000001#32 = .cmdSubmit ∧
  decodeAccess 0x80000002#32 = .cmdTStart ∧ decodeAccess 0x80000003#32 = .cmdTStop ∧
  decodeAccess 0x80000004#32 = .cmdAckTick ∧ decodeAccess 0x80000005#32 = .cmdAckSec ∧
  decodeAccess 0x00010000#32 = .rdStatus ∧ decodeAccess 0x00050000#32 = .rdTidx ∧
  decodeAccess 0x00060000#32 = .rdTcount ∧ decodeAccess 0x00070000#32 = .rdTstat ∧
  decodeAccess 0x00080000#32 = .rdTcnt ∧ decodeAccess 0x00090000#32 = .rdBev ∧
  decodeAccess 0x80000007#32 = .cmdReserved67 7 ∧ decodeAccess 0x8000000F#32 = .cmdReserved815 15 ∧
  decodeAccess 0x800D1234#32 = .wrRsvd13 0x1234 ∧ decodeAccess 0x000D0000#32 = .rdRsvd13 ∧
  decodeAccess 0x80000011#32 = .cmdSubmit ∧ decodeAccess 0x80060105#32 = .wrTcount 261

/-- Each of the thirteen arms is selected exactly where its row's `when` holds (R93 and the `EVENT` rows of the table),
`H_IGNORED` where a transfer is registered and no other arm's holds (R92). A write-direction acknowledge with the cursor
past the length is then `H_IGNORED`'s (log 11). -/
def Obligations.ArmsAreSelectedByTheirRows : Prop :=
  ∀ (e : BitVec 4) (c : ArmContext),
    (selectArm e c = .spurious e ↔ c.bufValid = false) ∧
    (selectArm e c = .faultArbLost ↔ c.bufValid = true ∧ e = 6) ∧
    (selectArm e c = .faultBusError ↔ c.bufValid = true ∧ e = 7) ∧
    (selectArm e c = .nackAddr ↔ c.bufValid = true ∧ e = 2 ∧ (c.state = .addressing ∨ c.state = .writing)) ∧
    (selectArm e c = .nackData ↔ c.bufValid = true ∧ e = 4 ∧ (c.state = .addressing ∨ c.state = .writing)) ∧
    (selectArm e c = .stopDone ↔ c.bufValid = true ∧ e = 8 ∧ c.state = .stopping) ∧
    (selectArm e c = .writeNextAddrAck ↔
      c.bufValid = true ∧ e = 1 ∧ c.dir = false ∧ c.state = .addressing ∧ c.idx.toNat < c.length.toNat) ∧
    (selectArm e c = .writeNextDataAck ↔
      c.bufValid = true ∧ e = 3 ∧ c.dir = false ∧ c.state = .writing ∧ c.idx.toNat < c.length.toNat) ∧
    (selectArm e c = .writeDoneAddrAck ↔
      c.bufValid = true ∧ e = 1 ∧ c.dir = false ∧ c.state = .addressing ∧ c.idx = c.length) ∧
    (selectArm e c = .writeDoneDataAck ↔
      c.bufValid = true ∧ e = 3 ∧ c.dir = false ∧ c.state = .writing ∧ c.idx = c.length) ∧
    (selectArm e c = .readFirst ↔ c.bufValid = true ∧ e = 1 ∧ c.dir = true ∧ c.state = .addressing) ∧
    (selectArm e c = .readByte ↔ c.bufValid = true ∧ e = 5 ∧ c.dir = true ∧ c.state = .reading) ∧
    (selectArm e c = .ignored e ↔ c.bufValid = true ∧ e ≠ 6 ∧ e ≠ 7 ∧
      ¬((e = 2 ∨ e = 4) ∧ (c.state = .addressing ∨ c.state = .writing)) ∧ ¬(e = 8 ∧ c.state = .stopping) ∧
      ¬(c.dir = false ∧ (e = 1 ∧ c.state = .addressing ∨ e = 3 ∧ c.state = .writing) ∧ c.idx.toNat ≤ c.length.toNat) ∧
      ¬(c.dir = true ∧ (e = 1 ∧ c.state = .addressing ∨ e = 5 ∧ c.state = .reading)))

-- Steps and cycles -------------------------------------------------------------------------------------------------

/-- At the host stage with an access word on the port, a step is the decoded operation and then the next cycle's first
stage; the decoded operation is well formed. With no access the stage passes (R6 stage 5, R60). -/
def Obligations.HostStageRunsTheDecodedWord : Prop :=
  (∀ (s : State) (w : AccessWord), s.io.stage = .host → s.io.cur.access = some w →
    (decodeAccess w).wellFormed = true ∧ step s = onNext advance (exec (decodeAccess w) s)) ∧
  (∀ s : State, s.io.stage = .host → s.io.cur.access = none → step s = .next (advance s))

/-- The other stages run their agent's operation exactly where R6 has it step: the timebase with `tb_en`, the line engine
with `pd = 0`, the handler with `pd = 0`, an event pending at the start of the cycle and the handler scheduled. -/
def Obligations.AgentStagesRunTheirOperation : Prop :=
  ∀ s : State,
    (s.io.stage = .timebase →
      step s = if s.io.cur.tbEn then onNext advance (exec .tbStep s) else .next (advance s)) ∧
    (s.io.stage = .line →
      step s = if s.io.cur.pd then .next (advance s) else onNext advance (exec .lineStep s)) ∧
    (s.io.stage = .handler →
      step s = if s.io.cur.pd = false ∧ s.io.evAtStart = true ∧ s.io.cur.handlerGo = true
        then onNext advance (exec .handler s) else .next (advance s))

/-- Stage (1) without reset: the inputs are those laid down (or the free ones), the wires are the AND of the engine's
outputs and the other drivers (R110), the event pending at the start of the cycle is noted, and the elements of the block
keep their values. That sampling is a step of its own, and that the host's stores land in it, is the model's choice (logs 1
and 5). -/
def Obligations.SamplingTakesTheCyclesInputs : Prop :=
  ∀ s : State, s.io.stage = .sample → (nextStimulus s).rst = false →
    ∃ t : State, step s = .next t ∧ t.io.cur = nextStimulus s ∧
      t.io.sdaIn = (s.line.sdaO && (nextStimulus s).extSda) ∧ t.io.sclIn = (s.line.sclO && (nextStimulus s).extScl) ∧
      t.io.evAtStart = s.link.evPending ∧ t.io.rdData = none ∧ t.io.stage = .timebase ∧
      t.io.script = s.io.script.tail ∧ t.io.cycle = s.io.cycle + 1 ∧
      t.seq = s.seq ∧ t.link = s.link ∧ t.line = s.line ∧ t.timer = s.timer ∧ t.bAdd = s.bAdd ∧ t.bSet = s.bSet ∧
      t.par = s.par ∧ ∀ a : BufAddr, memRead a t.buffer = readAfterStores (nextStimulus s).bufWrites a s.buffer

/-- The reset state is the table of R31. -/
def Obligations.ResetStateIsTheTable : Prop :=
  let r := State.reset
  (r.seq.state = .idle ∧ r.seq.pending = false ∧ r.seq.outcome = .success ∧ r.seq.finalOutcome = .success ∧
    r.seq.addrByte = 0 ∧ r.seq.dir = false ∧ r.seq.bufValid = false ∧ r.seq.bufStart = 0 ∧ r.seq.length = 0 ∧
    r.seq.idx = 0 ∧ r.seq.subAcc = false ∧ r.seq.treq = 0 ∧ r.seq.tptr = 0 ∧ r.seq.tlen = 0) ∧
  (r.link.dreg = 0 ∧ r.link.evPending = false ∧ r.link.evCode = 0 ∧ r.link.actValid = false ∧ r.link.actCode = 0) ∧
  (r.line.ph = .idle ∧ r.line.qcnt = 0 ∧ r.line.unit = .addr ∧ r.line.bitcnt = 0 ∧ r.line.shreg = 0 ∧
    r.line.ackbit = true ∧ r.line.sdaO = true ∧ r.line.sclO = true ∧ r.line.sdaQ = true ∧ r.line.sclQ = true ∧
    r.line.busyDet = false) ∧
  (r.timer.count = 0 ∧ r.timer.running = false ∧ r.timer.tdiv = 0 ∧ r.timer.tickPending = false ∧
    r.timer.secPending = false ∧ r.timer.tcount = 0) ∧
  (r.bAdd.active = 0 ∧ r.bSet.active = 0 ∧ r.bAdd.longFired = false ∧ r.bSet.longFired = false ∧
    r.bAdd.bev = .none ∧ r.bSet.bev = .none)

/-- A cycle with `rst = 1` (R230, R231): from any state every element takes its reset value in one step and no further
stage runs; both lines are released (R232); the buffer space keeps all but the host's own stores; a read is answered
with the reset-state value, STATUS and BTN by the levels of this cycle (R231), any other access is ignored. That the whole
cycle is one step, and that its wires are those of before the reset, is the model's reading (log 17). -/
def Obligations.ResetCycleSetsEveryElement : Prop :=
  ∀ s : State, s.io.stage = .sample → (nextStimulus s).rst = true →
    ∃ t : State, step s = .next t ∧ t.seq = State.reset.seq ∧ t.link = State.reset.link ∧ t.line = State.reset.line ∧
      t.timer = State.reset.timer ∧ t.bAdd = State.reset.bAdd ∧ t.bSet = State.reset.bSet ∧
      t.line.sdaO = true ∧ t.line.sclO = true ∧ t.par = s.par ∧ t.io.stage = .sample ∧
      (∀ a : BufAddr, memRead a t.buffer = readAfterStores (nextStimulus s).bufWrites a s.buffer) ∧
      ((nextStimulus s).access = none → t.io.rdData = none) ∧
      (∀ w, (nextStimulus s).access = some w → w.getLsbD 31 = true → t.io.rdData = none) ∧
      (∀ w, (nextStimulus s).access = some w → w.getLsbD 31 = false → ∃ v : Reg, t.io.rdData = some v ∧
        (w.extractLsb' 16 4 = 1 →
          v = if s.line.sdaO && (nextStimulus s).extSda && s.line.sclO && (nextStimulus s).extScl then 2 else 0) ∧
        (w.extractLsb' 16 4 = 12 →
          (v.getLsbD 0 = true ↔ (nextStimulus s).btnAdd = s.par.activeLevelAdd) ∧
          (v.getLsbD 1 = true ↔ (nextStimulus s).btnSet = s.par.activeLevelSet) ∧ v.extractLsb' 2 14 = 0) ∧
        (w.extractLsb' 16 4 ≠ 1 → w.extractLsb' 16 4 ≠ 12 → v = 0))

/-- A host command falls after the timebase step of its cycle (R6; R144, R146): a `T_STOP` in the cycle of an overflow
copies 0 and the second stays pending; an `ACK_TICK` in the cycle of a tick clears it. The cycle is five steps. -/
def Obligations.SameCycleCommandsFollowTheTimebase : Prop :=
  ∀ (s : State) (x : Stimulus) (rest : List Stimulus), s.io.stage = .sample → s.io.script = x :: rest →
    x.rst = false → x.tbEn = true →
    (x.access = some 0x80000003#32 → s.timer.running = true → s.timer.count.toNat = 2 ^ s.par.cw.val - 1 →
      ∃ t : State, Host.Core.run core 5 s = .next t ∧ t.io.stage = .sample ∧ t.io.script = rest ∧
        t.timer.tcount = 0 ∧ t.timer.count = 0 ∧ t.timer.running = false ∧ t.timer.secPending = true) ∧
    (x.access = some 0x80000004#32 → s.timer.tdiv = s.par.tickDiv - 1 →
      ∃ t : State, Host.Core.run core 5 s = .next t ∧ t.io.stage = .sample ∧ t.io.script = rest ∧
        t.timer.tdiv = 0 ∧ t.timer.tickPending = false)

/-- With `pd = 1` a whole cycle leaves the line engine, the detector and both latches as they were, an access that is no
`SUBMIT` given (R222); the timer still steps. -/
def Obligations.PowerDownFreezesTheBusEngine : Prop :=
  ∀ (s : State) (x : Stimulus) (rest : List Stimulus), s.io.stage = .sample → s.io.script = x :: rest →
    x.rst = false → x.pd = true → (∀ w, x.access = some w → decodeAccess w ≠ .cmdSubmit) →
    ∃ t : State, Host.Core.run core 5 s = .next t ∧ t.io.stage = .sample ∧ t.line = s.line ∧ t.link = s.link ∧
      t.seq.state = s.seq.state ∧ t.seq.pending = s.seq.pending ∧ t.seq.idx = s.seq.idx ∧
      (x.tbEn = true → t.timer.tdiv = if s.timer.tdiv = s.par.tickDiv - 1 then 0 else s.timer.tdiv + 1)

-- Host reads -------------------------------------------------------------------------------------------------------

/-- `RD STATUS` answers the fields of R63 and changes nothing but the port's answer; a write changes nothing. -/
def Obligations.StatusReadsItsFields : Prop :=
  ∀ s : State, (∀ d : Reg, exec (.wrStatus d) s = .next s) ∧ ∃ v : Reg,
    exec .rdStatus s = .next { s with io := { s.io with rdData := some v } } ∧
    v.getLsbD 0 = s.seq.pending ∧
    (v.getLsbD 1 = true ↔ s.line.ph = .idle ∧ s.line.busyDet = false ∧ s.io.sdaIn = true ∧ s.io.sclIn = true) ∧
    v.getLsbD 2 = s.seq.subAcc ∧
    v.extractLsb' 3 2 = (match s.seq.outcome with
      | .success => 0 | .inProgress => 1 | .arbitrationLost => 2 | .addressNack => 3) ∧
    v.extractLsb' 5 3 = (match s.seq.state with
      | .idle => 0 | .addressing => 1 | .writing => 2 | .reading => 3 | .stopping => 4) ∧
    v.getLsbD 8 = s.seq.bufValid ∧ v.getLsbD 9 = s.link.evPending ∧ v.extractLsb' 10 4 = s.link.evCode ∧
    v.extractLsb' 14 2 = 0

/-- The reads of TREQ, TPTR, TLEN, TIDX (R64), TCOUNT and TCNT (R65) answer their element in its width, the upper bits 0,
and change nothing but the port's answer. -/
def Obligations.ElementReadsAnswerTheElement : Prop :=
  ∀ s : State,
    (∃ v : Reg, exec .rdTreq s = .next { s with io := { s.io with rdData := some v } } ∧
      v.toNat = s.seq.treq.toNat) ∧
    (∃ v : Reg, exec .rdTptr s = .next { s with io := { s.io with rdData := some v } } ∧
      v.toNat = s.seq.tptr.toNat % 2 ^ s.par.aw.val) ∧
    (∃ v : Reg, exec .rdTlen s = .next { s with io := { s.io with rdData := some v } } ∧
      v.toNat = s.seq.tlen.toNat % 2 ^ s.par.lw.val) ∧
    (∃ v : Reg, exec .rdTidx s = .next { s with io := { s.io with rdData := some v } } ∧
      v.toNat = s.seq.idx.toNat % 2 ^ s.par.lw.val) ∧
    (∃ v : Reg, exec .rdTcount s = .next { s with io := { s.io with rdData := some v } } ∧
      v.toNat = s.timer.tcount.toNat % 2 ^ s.par.cw.val) ∧
    (∃ v : Reg, exec .rdTcnt s = .next { s with io := { s.io with rdData := some v } } ∧
      v.toNat = s.timer.count.toNat % 2 ^ s.par.cw.val)

/-- The timer registers of R65: `TCOUNT` takes the low `CW` bits of a write and reads them with upper bits 0, `TCNT` reads
the live counter, `TSTAT` reads its fields, the requests as R206 and R207 give them. -/
def Obligations.TimerRegistersReadTheirFields : Prop :=
  ∀ s : State,
    (∀ d : Reg, ∃ c : Count, c.toNat = d.toNat % 2 ^ s.par.cw.val ∧
      exec (.wrTcount d) s = .next { s with timer := { s.timer with tcount := c } }) ∧
    (∃ v : Reg, exec .rdTcount s = .next { s with io := { s.io with rdData := some v } } ∧
      v.toNat = s.timer.tcount.toNat % 2 ^ s.par.cw.val) ∧
    (∃ v : Reg, exec .rdTcnt s = .next { s with io := { s.io with rdData := some v } } ∧
      v.toNat = s.timer.count.toNat % 2 ^ s.par.cw.val) ∧
    ∃ v : Reg,
    exec .rdTstat s = .next { s with io := { s.io with rdData := some v } } ∧
    v.getLsbD 0 = s.timer.running ∧ v.getLsbD 1 = s.timer.secPending ∧ v.getLsbD 2 = s.timer.tickPending ∧
    v.getLsbD 3 = (s.timer.secPending && s.timer.running) ∧ v.getLsbD 4 = s.timer.tickPending ∧
    v.extractLsb' 5 11 = 0

/-- The button registers BEV, BCNT_ADD, BCNT_SET and BTN read as R66 and R73 give them. -/
def Obligations.ButtonRegistersReadTheirFields : Prop :=
  let code : ButtonEvent → BitVec 3 := fun e => match e with
    | .none => 0 | .pressed => 1 | .released false => 2 | .longPress => 3 | .released true => 6
  ∀ s : State,
    (∃ v : Reg, exec .rdBev s = .next { s with io := { s.io with rdData := some v } } ∧
      v.extractLsb' 0 3 = code s.bAdd.bev ∧ v.getLsbD 3 = false ∧ v.extractLsb' 4 3 = code s.bSet.bev ∧
      v.extractLsb' 7 9 = 0) ∧
    (∃ v : Reg, exec .rdBcntAdd s = .next { s with io := { s.io with rdData := some v } } ∧
      v.extractLsb' 0 8 = s.bAdd.active ∧ v.getLsbD 8 = s.bAdd.longFired ∧ v.extractLsb' 9 7 = 0) ∧
    (∃ v : Reg, exec .rdBcntSet s = .next { s with io := { s.io with rdData := some v } } ∧
      v.extractLsb' 0 8 = s.bSet.active ∧ v.getLsbD 8 = s.bSet.longFired ∧ v.extractLsb' 9 7 = 0) ∧
    (∃ v : Reg, exec .rdBtn s = .next { s with io := { s.io with rdData := some v } } ∧
      (v.getLsbD 0 = true ↔ s.io.cur.btnAdd = s.par.activeLevelAdd) ∧
      (v.getLsbD 1 = true ↔ s.io.cur.btnSet = s.par.activeLevelSet) ∧ v.extractLsb' 2 14 = 0)

/-- R45: reserved indices and CMD read 0; writes to reserved indices and to read-only registers change nothing; the
reserved bits of the writable registers ignore writes and read 0. -/
def Obligations.ReservedAndReadOnlyRegisters : Prop :=
  ∀ s : State,
    (∀ i ∈ [Instr.rdCmd, .rdRsvd13, .rdRsvd14, .rdRsvd15],
      exec i s = .next { s with io := { s.io with rdData := some 0 } }) ∧
    (∀ d : Reg, ∀ i ∈ [Instr.wrStatus d, .wrTidx d, .wrTstat d, .wrTcnt d, .wrBev d, .wrBcntAdd d, .wrBcntSet d,
      .wrBtn d, .wrRsvd13 d, .wrRsvd14 d, .wrRsvd15 d], exec i s = .next s) ∧
    (∀ d d' : Reg, d.extractLsb' 0 8 = d'.extractLsb' 0 8 → exec (.wrTreq d) s = exec (.wrTreq d') s) ∧
    (∀ d d' : Reg, d.toNat % 2 ^ s.par.aw.val = d'.toNat % 2 ^ s.par.aw.val →
      exec (.wrTptr d) s = exec (.wrTptr d') s) ∧
    (∀ d d' : Reg, d.toNat % 2 ^ s.par.lw.val = d'.toNat % 2 ^ s.par.lw.val →
      exec (.wrTlen d) s = exec (.wrTlen d') s) ∧
    (∀ d d' : Reg, d.toNat % 2 ^ s.par.cw.val = d'.toNat % 2 ^ s.par.cw.val →
      exec (.wrTcount d) s = exec (.wrTcount d') s) ∧
    (∀ d d' : Reg, d.extractLsb' 0 4 = d'.extractLsb' 0 4 → decodeWrite 0 d = decodeWrite 0 d') ∧
    ∀ q ∈ [(Instr.rdTreq, 8), (.rdTptr, s.par.aw.val), (.rdTlen, s.par.lw.val), (.rdTcount, s.par.cw.val)], ∃ v : Reg,
      exec q.1 s = .next { s with io := { s.io with rdData := some v } } ∧ v.toNat < 2 ^ q.2

-- Host writes and commands -----------------------------------------------------------------------------------------

/-- The four operand writes store their field of the data, truncated to its width, and change nothing else (R64, R65, R67,
R50). -/
def Obligations.OperandWritesOnlyStore : Prop :=
  ∀ (s : State) (d : Reg),
    (∃ v : Byte, v.toNat = d.toNat % 256 ∧ exec (.wrTreq d) s = .next { s with seq := { s.seq with treq := v } }) ∧
    (∃ v : BufAddr, v.toNat = d.toNat % 2 ^ s.par.aw.val ∧
      exec (.wrTptr d) s = .next { s with seq := { s.seq with tptr := v } }) ∧
    (∃ v : BufLen, v.toNat = d.toNat % 2 ^ s.par.lw.val ∧
      exec (.wrTlen d) s = .next { s with seq := { s.seq with tlen := v } }) ∧
    (∃ v : Count, v.toNat = d.toNat % 2 ^ s.par.cw.val ∧
      exec (.wrTcount d) s = .next { s with timer := { s.timer with tcount := v } })

/-- An accepted `SUBMIT` (R81): no transfer pending and the bus idle (R20). It registers the request of the operand
registers, the address byte as R67 assembles it, and issues `A_START_ADDR`; nothing else changes. -/
def Obligations.AcceptedSubmitRegistersTheTransfer : Prop :=
  ∀ s : State, s.seq.pending = false → s.line.ph = .idle → s.line.busyDet = false → s.io.sdaIn = true →
    s.io.sclIn = true →
    ∃ a : Byte, a.toNat = (s.seq.treq.toNat % 128) * 2 + s.seq.treq.toNat / 128 ∧
      exec .cmdSubmit s = .next { s with
        seq := { s.seq with
          addrByte := a, dir := decide (128 ≤ s.seq.treq.toNat), bufStart := s.seq.tptr, length := s.seq.tlen,
          idx := 0, bufValid := true, pending := true, outcome := .inProgress, state := .addressing, subAcc := true }
        link := { s.link with actCode := 1, actValid := true } }

/-- A rejected `SUBMIT`, `bus_busy` (R201): with a transfer pending or the bus not idle it clears `sub_acc` and changes
nothing else. -/
def Obligations.RejectedSubmitOnlyClearsSubAcc : Prop :=
  ∀ s : State, (s.seq.pending = true ∨
      ¬(s.line.ph = .idle ∧ s.line.busyDet = false ∧ s.io.sdaIn = true ∧ s.io.sclIn = true)) →
    exec .cmdSubmit s = .next { s with seq := { s.seq with subAcc := false } }

/-- `T_START`, `T_STOP`, `ACK_TICK` and `ACK_SEC` write what R143, R144, R146 and R147 say and nothing else, whether or not
the counter runs already (R150). -/
def Obligations.TimerCommandsWriteTheirElements : Prop :=
  ∀ s : State,
    exec .cmdTStart s = .next { s with timer := { s.timer with count := s.timer.tcount, running := true } } ∧
    exec .cmdTStop s = .next { s with timer := { s.timer with running := false, tcount := s.timer.count } } ∧
    exec .cmdAckTick s = .next { s with timer := { s.timer with tickPending := false } } ∧
    exec .cmdAckSec s = .next { s with timer := { s.timer with secPending := false } } ∧
    (s.timer.running = true →
      exec .cmdTStart s = .next { s with timer := { s.timer with count := s.timer.tcount } }) ∧
    (s.timer.running = false →
      exec .cmdTStop s = .next { s with timer := { s.timer with tcount := s.timer.count } })

/-- Pause and resume (R144, R179): after `T_STOP`, any number of timebase steps and `T_START`, the counter runs on from the
count at the stop. -/
def Obligations.PauseLosesNoCount : Prop :=
  ∀ (s t u v : State) (n : Nat), exec .cmdTStop s = .next t → execTimes n .tbStep t = .next u →
    exec .cmdTStart u = .next v →
    u.timer.count = s.timer.count ∧ u.timer.tcount = s.timer.count ∧ v.timer.count = s.timer.count ∧
      v.timer.running = true ∧ v.timer.secPending = s.timer.secPending

-- Timer source -----------------------------------------------------------------------------------------------------

/-- `SEC_STEP` (R142): while running it counts, and from `2^CW - 1` wraps to 0 and sets `sec_pending`; stopped, it changes
nothing. -/
def Obligations.SecondStepCountsAndOverflows : Prop :=
  ∀ s : State,
    (s.timer.running = false → exec .secStep s = .next s) ∧
    (s.timer.running = true → s.timer.count.toNat = 2 ^ s.par.cw.val - 1 →
      exec .secStep s = .next { s with timer := { s.timer with count := 0, secPending := true } }) ∧
    (s.timer.running = true → s.timer.count.toNat < 2 ^ s.par.cw.val - 1 →
      ∃ c : Count, c.toNat = s.timer.count.toNat + 1 ∧
        exec .secStep s = .next { s with timer := { s.timer with count := c } })

/-- The law of the second counter (R149): `n` timebase steps after a start from `c` of `CW` bits, the count is
`(c + n) mod 2^CW`, and a second is pending if one was before or `c + n` has reached `2^CW`. -/
def Obligations.SecondCounterFollowsItsLaw : Prop :=
  ∀ (s : State) (n : Nat), s.timer.running = true → s.timer.count.toNat < 2 ^ s.par.cw.val →
    ∃ t : State, execTimes n .tbStep s = .next t ∧ t.timer.running = true ∧
      t.timer.count.toNat = (s.timer.count.toNat + n) % 2 ^ s.par.cw.val ∧
      (t.timer.secPending = true ↔ s.timer.secPending = true ∨ 2 ^ s.par.cw.val ≤ s.timer.count.toNat + n)

/-- The tick (R141): from a divider at 0, `n` timebase steps leave it at `n mod TICK_DIV`, and a tick is pending if one
was before or `n` has reached `TICK_DIV`. It does not depend on `running`. -/
def Obligations.TickFallsEveryTickDivSteps : Prop :=
  ∀ (s : State) (n : Nat), s.timer.tdiv = 0 → 1 ≤ s.par.tickDiv →
    ∃ t : State, execTimes n .tbStep s = .next t ∧ t.timer.tdiv = n % s.par.tickDiv ∧
      (t.timer.tickPending = true ↔ s.timer.tickPending = true ∨ s.par.tickDiv ≤ n)

/-- `TICK` (R141, R160, R161): it sets `tick_pending` and takes one sample of Add, then one of Set, pressed or released by
the level of the line in this cycle. -/
def Obligations.TickSamplesBothButtons : Prop :=
  ∀ s : State,
    let sampleOf : Button → State → Instr := fun b s =>
      if (match b with | .add => s.io.cur.btnAdd | .set => s.io.cur.btnSet)
          = (match b with | .add => s.par.activeLevelAdd | .set => s.par.activeLevelSet)
      then .bSamplePressed b else .bSampleReleased b
    ∃ t u : State,
      exec (sampleOf .add s) { s with timer := { s.timer with tickPending := true } } = .next t ∧
      exec (sampleOf .set s) t = .next u ∧ exec .tick s = .next u ∧
      u.timer = { s.timer with tickPending := true } ∧ u.seq = s.seq ∧ u.link = s.link ∧ u.line = s.line ∧
      u.buffer = s.buffer ∧ u.io = s.io ∧ u.par = s.par

/-- `TB_STEP` (R140): the divider wraps and ticks, or counts; then the second counter step. -/
def Obligations.TimebaseStepDividesThenCounts : Prop :=
  ∀ s : State, ∃ t u : State,
    (if s.timer.tdiv = s.par.tickDiv - 1 then exec .tick { s with timer := { s.timer with tdiv := 0 } } = .next t
      else t = { s with timer := { s.timer with tdiv := s.timer.tdiv + 1 } }) ∧
    exec .secStep t = .next u ∧ exec .tbStep s = .next u

-- Button classifier ------------------------------------------------------------------------------------------------

/-- The sample step of each button (R162, R163, R164). Pressed: the counter moves and restarts at the threshold, the event
is `pressed` on the first sample of a hold, `long-press` at its first crossing, else none. Released: after a hold the event
is `released` with `after_long` as the hold left it and the counter is cleared; without one the event is none. Nothing
else changes. -/
def Obligations.ButtonSamplesFollowTheirBranch : Prop :=
  ∀ s : State,
    (∃ d, exec (.bSamplePressed .add) s = .next { s with bAdd := d } ∧ PressedSample s.par.longAdd s.bAdd d) ∧
    (∃ d, exec (.bSamplePressed .set) s = .next { s with bSet := d } ∧ PressedSample s.par.longSet s.bSet d) ∧
    (∃ d, exec (.bSampleReleased .add) s = .next { s with bAdd := d } ∧ ReleasedSample s.bAdd d) ∧
    (∃ d, exec (.bSampleReleased .set) s = .next { s with bSet := d } ∧ ReleasedSample s.bSet d)

/-- The law of a hold (R166, R165), for each button: after `n` consecutive pressed samples from a released button the
counter is `n mod LONG_TICKS` and the long-press has fired exactly when `n` has reached it; the `n`-th sample's event is
`pressed` for the first, `long-press` for the one that reaches the threshold, none otherwise; the released sample that
follows carries `after_long` and clears the counter. -/
def Obligations.HoldFollowsItsLaw : Prop :=
  ∀ (s : State) (b : Button) (n : Nat), 2 ≤ (longTicks b s).toNat → (buttonOf b s).active = 0 →
    (buttonOf b s).longFired = false → 1 ≤ n →
    ∃ t u : State, execTimes n (.bSamplePressed b) s = .next t ∧ exec (.bSampleReleased b) t = .next u ∧
      (buttonOf b t).active.toNat = n % (longTicks b s).toNat ∧
      ((buttonOf b t).longFired = true ↔ (longTicks b s).toNat ≤ n) ∧
      (buttonOf b t).bev = (if n = 1 then .pressed else if n = (longTicks b s).toNat then .longPress else .none) ∧
      buttonOf b u =
        { active := 0, longFired := false, bev := .released (decide ((longTicks b s).toNat ≤ n)) }

-- Handler arms -----------------------------------------------------------------------------------------------------

/-- The arms that move no data. `H_SPURIOUS` and `H_IGNORED` clear `ev_pending` and nothing else (R84, R92). `H_FAULT`
records `arbitration_lost` and ends the transfer with no action (R85), `H_STOP_DONE` ends it with `final` (R87). `H_NACK`
and `H_WRITE_DONE` note the outcome to come, issue `A_STOP` and stop (R86, R89); `H_READ_FIRST` issues `A_RECV` and reads
(R90). Each does so on every event that selects it, and changes nothing else: the cursor and the buffer stay. -/
def Obligations.ArmsWithoutDataWriteTheirElements : Prop :=
  ∀ (s : State) (e : BitVec 4),
    (∀ i ∈ [Instr.hSpurious e, .hIgnored e], exec i s = .next { s with link := { s.link with evPending := false } }) ∧
    (∀ i ∈ [Instr.hFaultEvArbLost, .hFaultEvBusError], exec i s = .next { s with
      seq := { s.seq with outcome := .arbitrationLost, pending := false, bufValid := false, state := .idle }
      link := { s.link with evPending := false } }) ∧
    exec .hStopDone s = .next { s with
      seq := { s.seq with outcome := s.seq.finalOutcome, pending := false, bufValid := false, state := .idle }
      link := { s.link with evPending := false } } ∧
    (∀ i ∈ [Instr.hNackEvAddrNack, .hNackEvDataNack], exec i s = .next { s with
      seq := { s.seq with finalOutcome := .addressNack, state := .stopping }
      link := { s.link with evPending := false, actCode := 6, actValid := true } }) ∧
    (∀ i ∈ [Instr.hWriteDoneEvAddrAck, .hWriteDoneEvDataAck], exec i s = .next { s with
      seq := { s.seq with finalOutcome := .success, state := .stopping }
      link := { s.link with evPending := false, actCode := 6, actValid := true } }) ∧
    exec .hReadFirst s = .next { s with
      seq := { s.seq with state := .reading }
      link := { s.link with evPending := false, actCode := 3, actValid := true } }

/-- `H_WRITE_NEXT` (R88), on either event: the byte at `(buf_start + idx) mod 2^AW` goes to `dreg`, the cursor moves by
one, `A_SEND` is issued; nothing else changes, the buffer included. -/
def Obligations.WriteNextSendsTheByteAtTheCursor : Prop :=
  ∀ s : State, ∀ i ∈ [Instr.hWriteNextEvAddrAck, .hWriteNextEvDataAck],
    ∃ (a : BufAddr) (k : BufLen), a.toNat = (s.seq.bufStart.toNat + s.seq.idx.toNat) % 2 ^ s.par.aw.val ∧
      (s.seq.idx.toNat < s.seq.length.toNat → k.toNat = s.seq.idx.toNat + 1) ∧
      exec i s = .next { s with
        seq := { s.seq with idx := k, state := .writing }
        link := { s.link with
          evPending := false, dreg := memRead a s.buffer, actCode := 2, actValid := true } }

/-- `H_READ_BYTE` (R91): while a slot remains the byte in `dreg` is stored at `(buf_start + idx) mod 2^AW` and the cursor
moves by one; then `A_ACK_RECV` if more bytes are wanted, else `A_NACK_STOP` with `success` to come. Every other byte of the
buffer and everything else is as before; with no slot left nothing is stored. -/
def Obligations.ReadByteStoresAndDecides : Prop :=
  ∀ s : State, ∃ (t : State) (a : BufAddr), a.toNat = (s.seq.bufStart.toNat + s.seq.idx.toNat) % 2 ^ s.par.aw.val ∧
    exec .hReadByte s = .next t ∧
    t.seq.idx.toNat = s.seq.idx.toNat + (if s.seq.idx.toNat < s.seq.length.toNat then 1 else 0) ∧
    (∀ k : BufAddr, memRead k t.buffer =
      if s.seq.idx.toNat < s.seq.length.toNat ∧ k = a then s.link.dreg else memRead k s.buffer) ∧
    (t.seq.idx.toNat < s.seq.length.toNat →
      t.seq = { s.seq with idx := t.seq.idx } ∧
      t.link = { s.link with evPending := false, actCode := 4, actValid := true }) ∧
    (¬t.seq.idx.toNat < s.seq.length.toNat →
      t.seq = { s.seq with idx := t.seq.idx, finalOutcome := .success, state := .stopping } ∧
      t.link = { s.link with evPending := false, actCode := 5, actValid := true }) ∧
    t.line = s.line ∧ t.timer = s.timer ∧ t.bAdd = s.bAdd ∧ t.bSet = s.bSet ∧ t.io = s.io ∧ t.par = s.par

/-- `HANDLER` (R82, R93): the handler step is exactly the arm that R93 selects, run once; the event is taken. -/
def Obligations.HandlerRunsTheSelectedArm : Prop :=
  ∀ s : State, ∃ t : State,
    exec .handler s = .next t ∧
    exec (selectArm s.link.evCode ⟨s.seq.bufValid, s.seq.state, s.seq.dir, s.seq.idx, s.seq.length⟩).instr s = .next t ∧
    t.link.evPending = false ∧ t.link.evCode = s.link.evCode ∧ t.line = s.line ∧ t.timer = s.timer ∧
    t.bAdd = s.bAdd ∧ t.bSet = s.bSet

/-- A write transfer whose address and bytes are all acknowledged (R98 (c), (e)): `L + 2` handler steps move the cursor to
the end and end it with `success`; before the stop, after the address and `k` byte events, `k + 1` bytes have been handed
over and the last of them is in `dreg`. -/
def Obligations.AcknowledgedWriteSendsTheBuffer : Prop :=
  ∀ s : State, s.seq.bufValid = true → s.seq.pending = true → s.seq.state = .addressing → s.seq.dir = false →
    s.seq.idx = 0 →
    (∀ k : Nat, k < s.seq.length.toNat → ∃ (t : State) (a : BufAddr),
      serve ((evAddrAck, 0) :: List.replicate k (evDataAck, 0)) s = .next t ∧
      a.toNat = (s.seq.bufStart.toNat + k) % 2 ^ s.par.aw.val ∧
      t.link.dreg = memRead a s.buffer ∧ t.seq.idx.toNat = k + 1 ∧ t.link.actCode = 2 ∧ t.link.actValid = true ∧
      t.seq.state = .writing) ∧
    ∃ t : State,
      serve (((evAddrAck, 0) :: List.replicate s.seq.length.toNat (evDataAck, 0)) ++ [(evStopDone, 0)]) s = .next t ∧
      t.seq.outcome = .success ∧ t.seq.pending = false ∧ t.seq.state = .idle ∧ t.seq.idx = s.seq.length ∧
      t.buffer = s.buffer

/-- A read transfer of `L ≥ 1` bytes that meets no fault (R98 (d), (e)): the bytes received are stored from `buf_start` on,
every byte but the last is acknowledged, the last is refused and followed by a stop, and the outcome is `success`. The
bytes fit the buffer space, so that none lies on another (R47). -/
def Obligations.ReadStoresTheReceivedBytes : Prop :=
  ∀ (s : State) (bytes : List Byte), s.seq.bufValid = true → s.seq.pending = true → s.seq.state = .addressing →
    s.seq.dir = true → s.seq.idx = 0 → bytes.length = s.seq.length.toNat → 1 ≤ bytes.length →
    bytes.length ≤ 2 ^ s.par.aw.val →
    (∀ k : Nat, 1 ≤ k → k ≤ bytes.length → ∃ t : State,
      serve ((evAddrAck, 0) :: (bytes.take k).map (fun b => (evDataRcvd, b))) s = .next t ∧
      t.link.actValid = true ∧ t.link.actCode = (if k < bytes.length then 4 else 5) ∧ t.seq.idx.toNat = k) ∧
    ∃ t : State,
      serve (((evAddrAck, 0) :: bytes.map (fun b => (evDataRcvd, b))) ++ [(evStopDone, 0)]) s = .next t ∧
      t.seq.outcome = .success ∧ t.seq.pending = false ∧ t.seq.state = .idle ∧
      (∀ (k : Nat) (a : BufAddr), k < bytes.length → a.toNat = (s.seq.bufStart.toNat + k) % 2 ^ s.par.aw.val →
        bytes[k]? = some (memRead a t.buffer)) ∧
      (∀ a : BufAddr, (∀ k < bytes.length, a.toNat ≠ (s.seq.bufStart.toNat + k) % 2 ^ s.par.aw.val) →
        memRead a t.buffer = memRead a s.buffer)

-- Line engine ------------------------------------------------------------------------------------------------------

/-- Taking an action (R114, R115), each of the eight codes: in `P_HOLD` the five that continue a transfer start their
cells or the stop condition and the others are dropped; in `P_IDLE` `A_START_ADDR` begins the start condition and the
others are dropped; in any other phase nothing is taken (the model's reading of R83, log 22). -/
def Obligations.ActionsAreTakenByPhase : Prop :=
  ∀ s : State,
    (s.line.ph = .hold →
      let l := { s.link with actValid := false }
      exec .aSend s = .next { s with link := l, line := { s.line with
        qcnt := 0, shreg := s.link.dreg, unit := .tx, bitcnt := 0, ph := .q1 } } ∧
      exec .aRecv s = .next { s with link := l, line := { s.line with
        qcnt := 0, unit := .rx, bitcnt := 0, ph := .q1 } } ∧
      exec .aAckRecv s = .next { s with link := l, line := { s.line with qcnt := 0, unit := .ack, ph := .q1 } } ∧
      exec .aNackStop s = .next { s with link := l, line := { s.line with qcnt := 0, unit := .nack, ph := .q1 } } ∧
      exec .aStop s = .next { s with link := l, line := { s.line with qcnt := 0, sdaO := false, ph := .sp1 } } ∧
      ∀ i ∈ [Instr.aStartAddr, .aNone, .aReserved7],
        exec i s = .next { s with link := l, line := { s.line with qcnt := 0 } }) ∧
    (s.line.ph = .idle →
      exec .aStartAddr s = .next { s with
        link := { s.link with actValid := false }, line := { s.line with ph := .st0, qcnt := 0 } } ∧
      ∀ i ∈ [Instr.aSend, .aRecv, .aAckRecv, .aNackStop, .aStop, .aNone, .aReserved7],
        exec i s = .next { s with link := { s.link with actValid := false } }) ∧
    (s.line.ph ≠ .hold → s.line.ph ≠ .idle →
      ∀ i ∈ [Instr.aStartAddr, .aSend, .aRecv, .aAckRecv, .aNackStop, .aStop, .aNone, .aReserved7],
        exec i s = .next s)

/-- `LINE_STEP` in `P_IDLE` and `P_HOLD` (R130, R114, R115): the detector, then the latched action's operation if there is
one, and nothing more. -/
def Obligations.LineStepTakesTheLatchedAction : Prop :=
  ∀ s : State, (s.line.ph = .idle ∨ s.line.ph = .hold) → ∃ d : State, Observed s d ∧
    (s.link.actValid = false → exec .lineStep s = .next d) ∧
    (s.link.actValid = true → ∃ (i : Instr) (t : State), decode (.action s.link.actCode) = .ok i ∧
      exec i d = .next t ∧ exec .lineStep s = .next t)

/-- The detector runs in every line step, in every phase (R111): it keeps the sampled levels, a start condition sets
`busy_det`, a stop condition clears it, anything else leaves it. -/
def Obligations.DetectorRunsInEveryLineStep : Prop :=
  ∀ s : State, ∃ t : State, exec .lineStep s = .next t ∧
    t.line.sdaQ = s.io.sdaIn ∧ t.line.sclQ = s.io.sclIn ∧
    (s.line.sclQ = true → s.io.sclIn = true → s.line.sdaQ = true → s.io.sdaIn = false → t.line.busyDet = true) ∧
    (s.line.sclQ = true → s.io.sclIn = true → s.line.sdaQ = false → s.io.sdaIn = true → t.line.busyDet = false) ∧
    (s.line.sclQ = false ∨ s.io.sclIn = false ∨ s.line.sdaQ = s.io.sdaIn → t.line.busyDet = s.line.busyDet)

/-- The bus-error monitor (R127, R129): a start or stop condition seen in `P_Q3` or `P_Q4` aborts before the phase timer:
lines released, engine idle, `EV_BUS_ERROR` raised; the unit, the cell and the shift register keep their values. Clock
stretching (R113): in `P_Q3` and `P_SP2` a step that reads SCL low does not count and sets `qcnt` to 0; only the detector's
levels move beside it. -/
def Obligations.BusErrorAbortsAndStretchingWaits : Prop :=
  ∀ s : State,
    ((s.line.ph = .q3 ∨ s.line.ph = .q4) → s.line.sclQ = true → s.io.sclIn = true → s.line.sdaQ ≠ s.io.sdaIn →
      exec .lineStep s = .next { s with
        link := { s.link with evCode := 7, evPending := true }
        line := { s.line with
          busyDet := !s.io.sdaIn, sdaQ := s.io.sdaIn, sclQ := s.io.sclIn
          sdaO := true, sclO := true, ph := .idle, qcnt := 0 } }) ∧
    ((s.line.ph = .q3 ∨ s.line.ph = .sp2) → s.io.sclIn = false →
      exec .lineStep s = .next { s with line := { s.line with
        sdaQ := s.io.sdaIn, sclQ := s.io.sclIn, qcnt := 0 } })

/-- A phase lasts `QDIV` counted cycles (R113), from the step after the one that enters it: with the count at 0 and the
wires at one level during the phase, SCL not held where the phase would wait for it, the first `n < QDIV` line steps stay in
the phase and count, and the next one is the phase end: it leaves the phase, unless it is `P_SP3` with SDA held low, which
stays with `qcnt = QDIV - 1`. SDA may have changed as the phase began; only in `P_Q3` and `P_Q4`, where the bus-error
monitor watches (R127), that change is no start or stop condition. -/
def Obligations.PhaseLastsQdivCycles : Prop :=
  ∀ s : State, s.line.ph ≠ .idle → s.line.ph ≠ .hold → s.line.qcnt = 0 → 1 ≤ s.par.qdiv →
    (s.line.ph = .q3 ∨ s.line.ph = .sp2 → s.io.sclIn = true) →
    (s.line.ph = .q3 ∨ s.line.ph = .q4 → s.line.sclQ = false ∨ s.io.sclIn = false ∨ s.line.sdaQ = s.io.sdaIn) →
    (∀ n < s.par.qdiv, ∃ t : State, execTimes n .lineStep s = .next t ∧
      t.line.ph = s.line.ph ∧ t.line.qcnt = n ∧ t.line.sdaO = s.line.sdaO ∧ t.line.sclO = s.line.sclO ∧
      t.link = s.link) ∧
    ∃ t : State, execTimes s.par.qdiv .lineStep s = .next t ∧
      (if s.line.ph = .sp3 ∧ s.io.sdaIn = false then t.line.ph = .sp3 ∧ t.line.qcnt = s.par.qdiv - 1 ∧ t.link = s.link
        else t.line.ph ≠ s.line.ph ∧ t.line.qcnt = 0)

/-- The ends of the start phases (R116, R117, R118): after the detector, the step at the end of `P_ST0` drives SDA low or
loses arbitration, that of `P_ST1` drives SCL low, that of `P_ST2` loads the address byte; nothing else changes. -/
def Obligations.StartConditionPhases : Prop :=
  ∀ s : State, s.line.qcnt = s.par.qdiv - 1 → ∃ d : State, Observed s d ∧
    (s.line.ph = .st0 → (s.io.sdaIn = false ∨ s.io.sclIn = false) →
      exec .lineStep s = .next { d with
        link := { s.link with evCode := 6, evPending := true }
        line := { d.line with sdaO := true, sclO := true, ph := .idle, qcnt := 0 } }) ∧
    (s.line.ph = .st0 → s.io.sdaIn = true → s.io.sclIn = true →
      exec .lineStep s = .next { d with line := { d.line with sdaO := false, ph := .st1, qcnt := 0 } }) ∧
    (s.line.ph = .st1 →
      exec .lineStep s = .next { d with line := { d.line with sclO := false, ph := .st2, qcnt := 0 } }) ∧
    (s.line.ph = .st2 →
      exec .lineStep s = .next { d with line := { d.line with
        shreg := s.seq.addrByte, unit := .addr, bitcnt := 0, ph := .q1, qcnt := 0 } })

/-- The ends of the first two quarters of a cell (R119, R120): after the detector, SDA takes the level of the cell, by
unit; then SCL is released; nothing else changes. -/
def Obligations.CellDrivesThenReleasesTheClock : Prop :=
  ∀ s : State, s.line.qcnt = s.par.qdiv - 1 → ∃ d : State, Observed s d ∧
    (s.line.ph = .q1 → ∃ b : Bool,
      exec .lineStep s = .next { d with line := { d.line with sdaO := b, ph := .q2, qcnt := 0 } } ∧
      ((s.line.unit = .addr ∨ s.line.unit = .tx) → s.line.bitcnt.toNat < 8 →
        b = decide (128 ≤ s.line.shreg.toNat)) ∧
      ((s.line.unit = .addr ∨ s.line.unit = .tx) → s.line.bitcnt.toNat = 8 → b = true) ∧
      (s.line.unit = .rx → b = true) ∧ (s.line.unit = .ack → b = false) ∧ (s.line.unit = .nack → b = true)) ∧
    (s.line.ph = .q2 →
      exec .lineStep s = .next { d with line := { d.line with sclO := true, ph := .q3, qcnt := 0 } })

/-- The sample at the end of `P_Q3` (R121), SCL high and no start or stop condition in the step: arbitration is lost
where the engine released a 1 it owns and reads 0; otherwise a sent bit shifts out, the ninth cell is the acknowledge bit,
a received bit shifts in. Nothing else changes but what the detector sees. -/
def Obligations.ThirdQuarterSamplesOrLosesArbitration : Prop :=
  ∀ s : State, s.line.qcnt = s.par.qdiv - 1 → s.line.ph = .q3 → s.io.sclIn = true →
    (s.line.sclQ = false ∨ s.line.sdaQ = s.io.sdaIn) → ∃ d : State, Observed s d ∧
    (((s.line.unit = .addr ∨ s.line.unit = .tx) ∧ s.line.bitcnt.toNat < 8 ∧ s.line.sdaO = true ∧ s.io.sdaIn = false) ∨
      (s.line.unit = .nack ∧ s.io.sdaIn = false) →
      exec .lineStep s = .next { d with
        link := { s.link with evCode := 6, evPending := true }
        line := { d.line with sdaO := true, sclO := true, ph := .idle, qcnt := 0 } }) ∧
    ((s.line.unit = .addr ∨ s.line.unit = .tx) → s.line.bitcnt.toNat < 8 →
      (s.line.sdaO = false ∨ s.io.sdaIn = true) → ∃ b : Byte, b.toNat = s.line.shreg.toNat * 2 % 256 ∧
      exec .lineStep s = .next { d with line := { d.line with shreg := b, ph := .q4, qcnt := 0 } }) ∧
    ((s.line.unit = .addr ∨ s.line.unit = .tx) → s.line.bitcnt.toNat = 8 →
      exec .lineStep s = .next { d with line := { d.line with ackbit := s.io.sdaIn, ph := .q4, qcnt := 0 } }) ∧
    (s.line.unit = .rx → ∃ b : Byte, b.toNat = (s.line.shreg.toNat * 2 + s.io.sdaIn.toNat) % 256 ∧
      exec .lineStep s = .next { d with line := { d.line with shreg := b, ph := .q4, qcnt := 0 } }) ∧
    (s.line.unit = .ack ∨ (s.line.unit = .nack ∧ s.io.sdaIn = true) →
      exec .lineStep s = .next { d with line := { d.line with ph := .q4, qcnt := 0 } })

/-- The end of a cell (R122), no start or stop condition in the step: SCL goes low; the next cell, or the event that
reports the byte and `P_HOLD`, or after the acknowledge cell a receive unit, or after the refusing cell the stop. Nothing
else changes but what the detector sees. -/
def Obligations.FourthQuarterEndsTheCell : Prop :=
  ∀ s : State, s.line.qcnt = s.par.qdiv - 1 → s.line.ph = .q4 →
    (s.line.sclQ = false ∨ s.io.sclIn = false ∨ s.line.sdaQ = s.io.sdaIn) → ∃ d : State, Observed s d ∧
    ((s.line.unit = .addr ∨ s.line.unit = .tx) ∧ s.line.bitcnt.toNat < 8 ∨
      s.line.unit = .rx ∧ s.line.bitcnt.toNat < 7 →
      ∃ n : BitVec 4, n.toNat = s.line.bitcnt.toNat + 1 ∧
        exec .lineStep s = .next { d with line := { d.line with sclO := false, bitcnt := n, ph := .q1, qcnt := 0 } }) ∧
    (s.line.unit = .addr → s.line.bitcnt.toNat = 8 →
      exec .lineStep s = .next { d with
        link := { s.link with evCode := if s.line.ackbit then 2 else 1, evPending := true }
        line := { d.line with sclO := false, ph := .hold, qcnt := 0 } }) ∧
    (s.line.unit = .tx → s.line.bitcnt.toNat = 8 →
      exec .lineStep s = .next { d with
        link := { s.link with evCode := if s.line.ackbit then 4 else 3, evPending := true }
        line := { d.line with sclO := false, ph := .hold, qcnt := 0 } }) ∧
    (s.line.unit = .rx → s.line.bitcnt.toNat = 7 →
      exec .lineStep s = .next { d with
        link := { s.link with dreg := s.line.shreg, evCode := 5, evPending := true }
        line := { d.line with sclO := false, ph := .hold, qcnt := 0 } }) ∧
    (s.line.unit = .ack →
      exec .lineStep s = .next { d with line := { d.line with
        sclO := false, unit := .rx, bitcnt := 0, ph := .q1, qcnt := 0 } }) ∧
    (s.line.unit = .nack →
      exec .lineStep s = .next { d with line := { d.line with sclO := false, ph := .sp0, qcnt := 0 } })

/-- The stop condition (R123 to R126): after the detector, SDA low, SCL released, SDA released, and when SDA reads high the
engine is idle and `EV_STOP_DONE` is raised; while SDA is held low it stays as it is and tests again. -/
def Obligations.StopConditionPhases : Prop :=
  ∀ s : State, s.line.qcnt = s.par.qdiv - 1 → ∃ d : State, Observed s d ∧
    (s.line.ph = .sp0 →
      exec .lineStep s = .next { d with line := { d.line with sdaO := false, ph := .sp1, qcnt := 0 } }) ∧
    (s.line.ph = .sp1 →
      exec .lineStep s = .next { d with line := { d.line with sclO := true, ph := .sp2, qcnt := 0 } }) ∧
    (s.line.ph = .sp2 → s.io.sclIn = true →
      exec .lineStep s = .next { d with line := { d.line with sdaO := true, ph := .sp3, qcnt := 0 } }) ∧
    (s.line.ph = .sp3 → s.io.sdaIn = true →
      exec .lineStep s = .next { d with
        link := { s.link with evCode := 8, evPending := true }, line := { d.line with ph := .idle, qcnt := 0 } }) ∧
    (s.line.ph = .sp3 → s.io.sdaIn = false → exec .lineStep s = .next d)

-- Who writes what --------------------------------------------------------------------------------------------------

/-- R74: nothing traps; `NOP` and the reserved opcodes change no state; a reserved index reads 0 and ignores writes; bits
30:20 of an access word are ignored; a reserved action code is taken and dropped; a reserved event code, and any event that
fits no other arm, is consumed without effect. -/
def Obligations.NothingTrapsAndReservedCodesAreDropped : Prop :=
  (∀ (i : Instr) (s : State), ∃ t : State, exec i s = .next t) ∧ (∀ s : State, ∃ t : State, step s = .next t) ∧
  (∀ (s : State) (op : BitVec 4),
    exec .cmdNop s = .next s ∧ exec (.cmdReserved67 op) s = .next s ∧ exec (.cmdReserved815 op) s = .next s) ∧
  (∀ (s : State) (d : Reg),
    (∀ i ∈ [Instr.rdRsvd13, .rdRsvd14, .rdRsvd15],
      exec i s = .next { s with io := { s.io with rdData := some 0 } }) ∧
    ∀ i ∈ [Instr.wrRsvd13 d, .wrRsvd14 d, .wrRsvd15 d], exec i s = .next s) ∧
  (∀ w v : AccessWord, w &&& 0x800FFFFF#32 = v &&& 0x800FFFFF#32 → decodeAccess w = decodeAccess v) ∧
  (∀ s : State, s.link.actValid = true → (s.link.actCode = 0 ∨ s.link.actCode = 7) →
    (s.line.ph = .idle ∨ s.line.ph = .hold) →
    ∃ t : State, exec .lineStep s = .next t ∧ t.link = { s.link with actValid := false } ∧ t.line.ph = s.line.ph ∧
      t.line.sdaO = s.line.sdaO ∧ t.line.sclO = s.line.sclO ∧ t.seq = s.seq) ∧
  (∀ s : State, (s.seq.bufValid = false ∨ s.link.evCode = 0 ∨ 9 ≤ s.link.evCode.toNat ∨
      selectArm s.link.evCode (armContext s) = .ignored s.link.evCode) →
    exec .handler s = .next { s with link := { s.link with evPending := false } })

/-- The writers of the sequencer's elements (R10, R11, R14, R15, R28), by operation: only the listed ones change them. -/
def Obligations.SequencerElementsHaveTheirWriters : Prop :=
  ∀ (i : Instr) (s t : State), exec i s = .next t →
    ((t.seq.addrByte, t.seq.dir, t.seq.bufStart, t.seq.length, t.seq.subAcc) ≠
      (s.seq.addrByte, s.seq.dir, s.seq.bufStart, s.seq.length, s.seq.subAcc) → i = .cmdSubmit) ∧
    ((t.seq.state, t.seq.pending, t.seq.outcome, t.seq.bufValid, t.seq.idx) ≠
      (s.seq.state, s.seq.pending, s.seq.outcome, s.seq.bufValid, s.seq.idx) → i = .cmdSubmit ∨ IsHandlerOp i) ∧
    (t.seq.finalOutcome ≠ s.seq.finalOutcome → IsHandlerOp i) ∧
    (t.seq.treq ≠ s.seq.treq → ∃ d, i = .wrTreq d) ∧ (t.seq.tptr ≠ s.seq.tptr → ∃ d, i = .wrTptr d) ∧
    (t.seq.tlen ≠ s.seq.tlen → ∃ d, i = .wrTlen d)

/-- The writers of the latches, the line engine, the timer, the buttons and the buffer space (R13, R16 to R26, R46): only
the listed operations change them; none changes the parameters, the inputs of the cycle or the stage. -/
def Obligations.OtherElementsHaveTheirWriters : Prop :=
  ∀ (i : Instr) (s t : State), exec i s = .next t →
    (t.link ≠ s.link → i = .cmdSubmit ∨ IsHandlerOp i ∨ IsLineOp i) ∧
    (t.link.evCode ≠ s.link.evCode → i = .lineStep) ∧
    (t.line ≠ s.line → IsLineOp i) ∧
    (t.timer.count ≠ s.timer.count → i = .tbStep ∨ i = .secStep ∨ i = .cmdTStart) ∧
    (t.timer.running ≠ s.timer.running → i = .cmdTStart ∨ i = .cmdTStop) ∧
    (t.timer.tdiv ≠ s.timer.tdiv → i = .tbStep) ∧
    (t.timer.tickPending ≠ s.timer.tickPending → i = .tbStep ∨ i = .tick ∨ i = .cmdAckTick) ∧
    (t.timer.secPending ≠ s.timer.secPending → i = .tbStep ∨ i = .secStep ∨ i = .cmdAckSec) ∧
    (t.timer.tcount ≠ s.timer.tcount → i = .cmdTStop ∨ ∃ d, i = .wrTcount d) ∧
    (t.bAdd ≠ s.bAdd → i = .tbStep ∨ i = .tick ∨ i = .bSamplePressed .add ∨ i = .bSampleReleased .add) ∧
    (t.bSet ≠ s.bSet → i = .tbStep ∨ i = .tick ∨ i = .bSamplePressed .set ∨ i = .bSampleReleased .set) ∧
    (t.buffer ≠ s.buffer → i = .handler ∨ i = .hReadByte) ∧
    t.par = s.par ∧ t.io = { s.io with rdData := t.io.rdData }

/-- The only byte of the buffer space an operation can change is the one at the cursor, `(buf_start + idx) mod 2^AW`, and
only while a slot remains (R47, R91). -/
def Obligations.OnlyTheByteAtTheCursorIsStored : Prop :=
  ∀ (i : Instr) (s t : State) (a : BufAddr), exec i s = .next t → memRead a t.buffer ≠ memRead a s.buffer →
    a.toNat = (s.seq.bufStart.toNat + s.seq.idx.toNat) % 2 ^ s.par.aw.val ∧ s.seq.idx.toNat < s.seq.length.toNat ∧
      memRead a t.buffer = s.link.dreg

-- Invariants -------------------------------------------------------------------------------------------------------

/-- The reset state meets the invariants below. -/
def Obligations.ResetMeetsTheInvariants : Prop :=
  Consistent State.reset ∧ LinesFollowPhase State.reset ∧ CountersInRange State.reset ∧
    State.reset.par.legal = true ∧ Memory.wf State.reset.buffer = true

/-- Every step keeps sequencer, latches and line engine consistent (R32). -/
def Obligations.StepKeepsConsistent : Prop :=
  ∀ s t : State, Consistent s → step s = .next t → Consistent t

/-- Every step keeps the line outputs those of the phase (R114 to R126), whatever the rest of the state. -/
def Obligations.StepKeepsLinesFollowPhase : Prop :=
  ∀ s t : State, LinesFollowPhase s → step s = .next t → LinesFollowPhase t

/-- Every step keeps the counters in their ranges (R22, R27, R166) and every element in its width (R3), for every legal
value of the parameters. -/
def Obligations.StepKeepsCountersInRange : Prop :=
  ∀ s t : State, s.par.legal = true → CountersInRange s → step s = .next t →
    CountersInRange t ∧ t.par = s.par

/-- Every step keeps the buffer space in its canonical form, in which equal contents are equal data (the model's own
invariant of its memory, log 4). -/
def Obligations.StepKeepsBufferCanonical : Prop :=
  (∀ s t : State, Memory.wf s.buffer = true → step s = .next t → Memory.wf t.buffer = true) ∧
  ∀ m n : Memory, Memory.wf m = true → Memory.wf n = true →
    (∀ a : Nat, Memory.peek m a = Memory.peek n a) → m = n

/-- R32: its seven clauses in every reachable state. -/
def Obligations.ReachableStatesMeetTheLatchInvariants : Prop :=
  ∀ s : State, Reachable s →
    (s.link.evPending = true → s.line.ph = .idle ∨ s.line.ph = .hold) ∧
    (s.link.actValid = true → s.link.evPending = false ∧ s.seq.pending = true) ∧
    (s.link.evPending = true → s.seq.bufValid = true) ∧
    s.seq.pending = s.seq.bufValid ∧
    (s.seq.pending = false ↔ s.seq.state = .idle) ∧
    (s.seq.outcome = .inProgress ↔ s.seq.pending = true) ∧
    ¬(s.link.evPending = true ∧ s.link.actValid = true)

/-- The handler's two no-op arms are unreachable (R84, R92): in a reachable state whose next step is the handler step, the
arm selected is neither `H_SPURIOUS` nor `H_IGNORED`. -/
def Obligations.NoOpArmsAreUnreachable : Prop :=
  ∀ s : State, Reachable s → s.io.stage = .handler → currentInstr s = some .handler →
    ∀ e : BitVec 4, selectArm s.link.evCode (armContext s) ≠ .spurious e ∧
      selectArm s.link.evCode (armContext s) ≠ .ignored e

/-- The cursor (R12): every step keeps it at most the length, and changes it only by one upwards, in a handler step of a
transfer in flight, or to 0, at an accepted `SUBMIT` with no transfer in flight or in a reset cycle. -/
def Obligations.CursorOnlyMovesUp : Prop :=
  ∀ s t : State, Consistent s → step s = .next t →
    t.seq.idx.toNat ≤ t.seq.length.toNat ∧
    (t.seq.idx = s.seq.idx ∨
      (t.seq.idx.toNat = s.seq.idx.toNat + 1 ∧ s.io.stage = .handler ∧ s.seq.pending = true) ∨
      (t.seq.idx = 0 ∧ s.io.stage = .sample ∧ (nextStimulus s).rst = true) ∨
      (t.seq.idx = 0 ∧ s.io.stage = .host ∧ s.seq.pending = false ∧ t.seq.pending = true ∧ t.seq.subAcc = true ∧
        ∃ w, s.io.cur.access = some w ∧ decodeAccess w = .cmdSubmit))

-- The host beside the block ----------------------------------------------------------------------------------------

/-- The submit procedure (R76, R177): a write first stores its bytes from `p` on, a read stores nothing; its five words
decode to the operand writes, the command and the read; run one after another on an idle bus they register the transfer to
target `a`, and the answer of the read says it was accepted. That a store of the host keeps its 16-bit address, so that
`p + k` wraps at 65536 whatever `AW` is, is the model's choice (log 5): R42 and R47 wrap the block's own accesses at
`2^AW`. -/
def Obligations.SubmitProcedureRegistersTheTransfer : Prop :=
  (∀ (p : BufAddr) (bytes : List Byte) (m : Memory), bytes.length ≤ 65536 →
    submitStores true p bytes = [] ∧
    ∀ (k : Nat) (a : BufAddr), k < bytes.length → a.toNat = (p.toNat + k) % 65536 →
      bytes[k]? = some (memRead a (hostStores (submitStores false p bytes) m))) ∧
  ∀ (s : State) (a : BitVec 7) (d : Bool) (p : BufAddr) (n : BufLen),
    p.toNat < 2 ^ s.par.aw.val → n.toNat < 2 ^ s.par.lw.val → s.seq.pending = false → s.line.ph = .idle →
    s.line.busyDet = false → s.io.sdaIn = true → s.io.sclIn = true →
    ∃ (d0 d2 : Reg) (s1 s2 s3 s4 s5 : State) (v : Reg),
      (submitWords a d p n).map decodeAccess = [.wrTreq d0, .wrTptr p, .wrTlen d2, .cmdSubmit, .rdStatus] ∧
      exec (.wrTreq d0) s = .next s1 ∧ exec (.wrTptr p) s1 = .next s2 ∧ exec (.wrTlen d2) s2 = .next s3 ∧
      exec .cmdSubmit s3 = .next s4 ∧ exec .rdStatus s4 = .next s5 ∧ s5.io.rdData = some v ∧
      statusAccepted v = true ∧ statusOutcome v = none ∧
      s5.seq.addrByte.toNat = a.toNat * 2 + d.toNat ∧ s5.seq.dir = d ∧ s5.seq.bufStart = p ∧ s5.seq.length = n ∧
      s5.seq.idx = 0 ∧ s5.seq.pending = true

/-- The application's countdown (R186): from running with `remaining = N ≥ 1`, fewer than `N` second interrupts leave it
running with as many fewer, and the `N`-th one finishes it at 0 with the LED on and the display blinking at 2 Hz. -/
def Obligations.CountdownFinishesOnTheLastSecond : Prop :=
  ∀ (a : App) (hp : HostParams), a.phase = .running → 1 ≤ a.remaining →
    (∀ k < a.remaining, (appStep hp .second)^[k] a = { a with remaining := a.remaining - k }) ∧
    (appStep hp .second)^[a.remaining] a =
      { a with remaining := 0, blink := .twoHz, led := true, phase := .finished }

/-- The power mode coordinator (R176, R240): with the host's inputs in the loop, over any cycle without reset, a host that
is in power-down only with nothing pending stays so; then `pd` is 1 only with nothing pending, no cycle in power-down starts
a transfer, and a host in a handler drives `pd = 0`. -/
def Obligations.PowerDownNeverStarvesATransfer : Prop :=
  ∀ (hp : HostParams) (h : HostSide) (s : State) (env : Stimulus) (rest : List Stimulus),
    s.io.stage = .sample → s.io.script = h.inputs env :: rest → env.rst = false →
    (h.mode = .asleep .powerDown → s.seq.pending = false) →
    ∃ t : State, Host.Core.run core 5 s = .next t ∧ t.io.stage = .sample ∧ t.io.script = rest ∧
      (h.pd = true → s.seq.pending = false ∧ t.seq.pending = false) ∧
      ((h.next hp t.shows).mode = .asleep .powerDown → t.seq.pending = false) ∧
      ((h.next hp t.shows).mode = .handling → (h.next hp t.shows).pd = false)
end

