-- ==== Sys2Proof/Laws/Encoding.lean ====
section
/-! SUPPORT. The fields of an access word, bit by bit, and what the decoder reads from them (R60). -/

namespace Sys2Proof

/-- The bits of `WR idx, v` (R60). -/
theorem encodeWrite_bit (idx : BitVec 4) (v : Reg) (i : Nat) :
    (encodeWrite idx v).getLsbD i =
      if i < 16 then v.getLsbD i else if i < 20 then idx.getLsbD (i - 16) else decide (i = 31) := by
  have h : (encodeWrite idx v).getLsbD i =
      (((1#1 ++ 0#11 : BitVec 12) ++ idx : BitVec 16) ++ v : BitVec 32).getLsbD i := rfl
  have e : ((1#1 ++ 0#11 : BitVec 12)) = 2048#12 := by decide
  rw [h, e, @BitVec.getLsbD_append 16 16, @BitVec.getLsbD_append 12 4]
  by_cases h1 : i < 16
  · simp [h1]
  · by_cases h2 : i < 20
    · have : i - 16 < 4 := by omega
      simp [h1, h2, this]
    · have : ¬ i - 16 < 4 := by omega
      simp only [h1, h2, this, if_false]
      by_cases h3 : i < 32
      · interval_cases i <;> decide
      · rw [BitVec.getLsbD_of_ge _ _ (by omega)]; simp; omega

/-- The bits of `RD idx` (R60). -/
theorem encodeRead_bit (idx : BitVec 4) (i : Nat) :
    (encodeRead idx).getLsbD i = (decide (16 ≤ i) && idx.getLsbD (i - 16)) := by
  have h : (encodeRead idx).getLsbD i =
      (((0#1 ++ 0#11 : BitVec 12) ++ idx : BitVec 16) ++ (0#16) : BitVec 32).getLsbD i := rfl
  have e : ((0#1 ++ 0#11 : BitVec 12)) = 0#12 := by decide
  rw [h, e, @BitVec.getLsbD_append 16 16, @BitVec.getLsbD_append 12 4]
  by_cases h1 : i < 16
  · simp [h1]
  · have : 16 ≤ i := by omega
    by_cases k : i - 16 < 4
    · simp [h1, this, k]
    · simp [h1, this, k, BitVec.getLsbD_of_ge idx (i - 16) (by omega)]

@[simp] theorem accessIsWrite_encodeWrite (idx : BitVec 4) (v : Reg) : accessIsWrite (encodeWrite idx v) = true := by
  rw [accessIsWrite, encodeWrite_bit]; rfl

@[simp] theorem accessIdx_encodeWrite (idx : BitVec 4) (v : Reg) : accessIdx (encodeWrite idx v) = idx := by
  apply BitVec.eq_of_getLsbD_eq
  intro i hi
  have h : ¬16 + i < 16 := by omega
  have k : 16 + i < 20 := by omega
  simp [accessIdx, encodeWrite_bit, hi, h, k]

@[simp] theorem accessData_encodeWrite (idx : BitVec 4) (v : Reg) : accessData (encodeWrite idx v) = v := by
  apply BitVec.eq_of_getLsbD_eq
  intro i hi
  simp [accessData, encodeWrite_bit, hi]

@[simp] theorem accessIsWrite_encodeRead (idx : BitVec 4) : accessIsWrite (encodeRead idx) = false := by
  rw [accessIsWrite, encodeRead_bit, BitVec.getLsbD_of_ge _ _ (by decide)]; rfl

@[simp] theorem accessIdx_encodeRead (idx : BitVec 4) : accessIdx (encodeRead idx) = idx := by
  apply BitVec.eq_of_getLsbD_eq
  intro i hi
  simp [accessIdx, encodeRead_bit, hi]

theorem decodeAccess_encodeWrite (idx : BitVec 4) (v : Reg) : decodeAccess (encodeWrite idx v) = decodeWrite idx v := by
  simp [decodeAccess]

theorem decodeAccess_encodeRead (idx : BitVec 4) : decodeAccess (encodeRead idx) = decodeRead idx := by
  simp [decodeAccess]

/-- Two words agree in decoding where they agree in the fields it reads. -/
theorem decodeAccess_congr {w v : AccessWord} (h1 : accessIsWrite w = accessIsWrite v)
    (h2 : accessIdx w = accessIdx v) (h3 : accessIsWrite w = true → accessData w = accessData v) :
    decodeAccess w = decodeAccess v := by
  unfold decodeAccess
  rw [← h1, ← h2]
  split
  · rename_i h; rw [h3 h]
  · rfl

end Sys2Proof
end

