-- ==== Sys2Proof/Laws/State.lean ====
section
/-! SUPPORT. What each named update does to each part of the state: the unit it leaves alone, and field by field the one
it writes. All true by rfl, so that no proof unfolds a record update. -/

namespace Sys2Proof.Machine

variable (s : State)

-- answer

@[simp] theorem answer_seq (v : Reg) : (answer v s).seq = s.seq := rfl
@[simp] theorem answer_link (v : Reg) : (answer v s).link = s.link := rfl
@[simp] theorem answer_line (v : Reg) : (answer v s).line = s.line := rfl
@[simp] theorem answer_timer (v : Reg) : (answer v s).timer = s.timer := rfl
@[simp] theorem answer_bAdd (v : Reg) : (answer v s).bAdd = s.bAdd := rfl
@[simp] theorem answer_bSet (v : Reg) : (answer v s).bSet = s.bSet := rfl
@[simp] theorem answer_buffer (v : Reg) : (answer v s).buffer = s.buffer := rfl
@[simp] theorem answer_io_stage (v : Reg) : (answer v s).io.stage = s.io.stage := rfl
@[simp] theorem answer_io_cur (v : Reg) : (answer v s).io.cur = s.io.cur := rfl
@[simp] theorem answer_io_sdaIn (v : Reg) : (answer v s).io.sdaIn = s.io.sdaIn := rfl
@[simp] theorem answer_io_sclIn (v : Reg) : (answer v s).io.sclIn = s.io.sclIn := rfl
@[simp] theorem answer_io_evAtStart (v : Reg) : (answer v s).io.evAtStart = s.io.evAtStart := rfl
@[simp] theorem answer_io_rdData (v : Reg) : (answer v s).io.rdData = some v := rfl
@[simp] theorem answer_io_script (v : Reg) : (answer v s).io.script = s.io.script := rfl
@[simp] theorem answer_io_cycle (v : Reg) : (answer v s).io.cycle = s.io.cycle := rfl
@[simp] theorem answer_par (v : Reg) : (answer v s).par = s.par := rfl

-- issue

@[simp] theorem issue_seq (a : BitVec 3) : (issue a s).seq = s.seq := rfl
@[simp] theorem issue_link_evPending (a : BitVec 3) : (issue a s).link.evPending = s.link.evPending := rfl
@[simp] theorem issue_link_evCode (a : BitVec 3) : (issue a s).link.evCode = s.link.evCode := rfl
@[simp] theorem issue_link_actValid (a : BitVec 3) : (issue a s).link.actValid = true := rfl
@[simp] theorem issue_link_actCode (a : BitVec 3) : (issue a s).link.actCode = a := rfl
@[simp] theorem issue_link_dreg (a : BitVec 3) : (issue a s).link.dreg = s.link.dreg := rfl
@[simp] theorem issue_line (a : BitVec 3) : (issue a s).line = s.line := rfl
@[simp] theorem issue_timer (a : BitVec 3) : (issue a s).timer = s.timer := rfl
@[simp] theorem issue_bAdd (a : BitVec 3) : (issue a s).bAdd = s.bAdd := rfl
@[simp] theorem issue_bSet (a : BitVec 3) : (issue a s).bSet = s.bSet := rfl
@[simp] theorem issue_buffer (a : BitVec 3) : (issue a s).buffer = s.buffer := rfl
@[simp] theorem issue_io (a : BitVec 3) : (issue a s).io = s.io := rfl
@[simp] theorem issue_par (a : BitVec 3) : (issue a s).par = s.par := rfl

-- raiseEvent

@[simp] theorem raiseEvent_seq (e : BitVec 4) : (raiseEvent e s).seq = s.seq := rfl
@[simp] theorem raiseEvent_link_evPending (e : BitVec 4) : (raiseEvent e s).link.evPending = true := rfl
@[simp] theorem raiseEvent_link_evCode (e : BitVec 4) : (raiseEvent e s).link.evCode = e := rfl
@[simp] theorem raiseEvent_link_actValid (e : BitVec 4) : (raiseEvent e s).link.actValid = s.link.actValid := rfl
@[simp] theorem raiseEvent_link_actCode (e : BitVec 4) : (raiseEvent e s).link.actCode = s.link.actCode := rfl
@[simp] theorem raiseEvent_link_dreg (e : BitVec 4) : (raiseEvent e s).link.dreg = s.link.dreg := rfl
@[simp] theorem raiseEvent_line (e : BitVec 4) : (raiseEvent e s).line = s.line := rfl
@[simp] theorem raiseEvent_timer (e : BitVec 4) : (raiseEvent e s).timer = s.timer := rfl
@[simp] theorem raiseEvent_bAdd (e : BitVec 4) : (raiseEvent e s).bAdd = s.bAdd := rfl
@[simp] theorem raiseEvent_bSet (e : BitVec 4) : (raiseEvent e s).bSet = s.bSet := rfl
@[simp] theorem raiseEvent_buffer (e : BitVec 4) : (raiseEvent e s).buffer = s.buffer := rfl
@[simp] theorem raiseEvent_io (e : BitVec 4) : (raiseEvent e s).io = s.io := rfl
@[simp] theorem raiseEvent_par (e : BitVec 4) : (raiseEvent e s).par = s.par := rfl

-- takeEvent

@[simp] theorem takeEvent_seq : (takeEvent s).seq = s.seq := rfl
@[simp] theorem takeEvent_link_evPending : (takeEvent s).link.evPending = false := rfl
@[simp] theorem takeEvent_link_evCode : (takeEvent s).link.evCode = s.link.evCode := rfl
@[simp] theorem takeEvent_link_actValid : (takeEvent s).link.actValid = s.link.actValid := rfl
@[simp] theorem takeEvent_link_actCode : (takeEvent s).link.actCode = s.link.actCode := rfl
@[simp] theorem takeEvent_link_dreg : (takeEvent s).link.dreg = s.link.dreg := rfl
@[simp] theorem takeEvent_line : (takeEvent s).line = s.line := rfl
@[simp] theorem takeEvent_timer : (takeEvent s).timer = s.timer := rfl
@[simp] theorem takeEvent_bAdd : (takeEvent s).bAdd = s.bAdd := rfl
@[simp] theorem takeEvent_bSet : (takeEvent s).bSet = s.bSet := rfl
@[simp] theorem takeEvent_buffer : (takeEvent s).buffer = s.buffer := rfl
@[simp] theorem takeEvent_io : (takeEvent s).io = s.io := rfl
@[simp] theorem takeEvent_par : (takeEvent s).par = s.par := rfl

-- takeLatched

@[simp] theorem takeLatched_seq : (takeLatched s).seq = s.seq := rfl
@[simp] theorem takeLatched_link_evPending : (takeLatched s).link.evPending = s.link.evPending := rfl
@[simp] theorem takeLatched_link_evCode : (takeLatched s).link.evCode = s.link.evCode := rfl
@[simp] theorem takeLatched_link_actValid : (takeLatched s).link.actValid = false := rfl
@[simp] theorem takeLatched_link_actCode : (takeLatched s).link.actCode = s.link.actCode := rfl
@[simp] theorem takeLatched_link_dreg : (takeLatched s).link.dreg = s.link.dreg := rfl
@[simp] theorem takeLatched_line : (takeLatched s).line = s.line := rfl
@[simp] theorem takeLatched_timer : (takeLatched s).timer = s.timer := rfl
@[simp] theorem takeLatched_bAdd : (takeLatched s).bAdd = s.bAdd := rfl
@[simp] theorem takeLatched_bSet : (takeLatched s).bSet = s.bSet := rfl
@[simp] theorem takeLatched_buffer : (takeLatched s).buffer = s.buffer := rfl
@[simp] theorem takeLatched_io : (takeLatched s).io = s.io := rfl
@[simp] theorem takeLatched_par : (takeLatched s).par = s.par := rfl

-- enterPhase

@[simp] theorem enterPhase_seq (p : Phase) : (enterPhase p s).seq = s.seq := rfl
@[simp] theorem enterPhase_link (p : Phase) : (enterPhase p s).link = s.link := rfl
@[simp] theorem enterPhase_line_ph (p : Phase) : (enterPhase p s).line.ph = p := rfl
@[simp] theorem enterPhase_line_qcnt (p : Phase) : (enterPhase p s).line.qcnt = 0 := rfl
@[simp] theorem enterPhase_line_unit (p : Phase) : (enterPhase p s).line.unit = s.line.unit := rfl
@[simp] theorem enterPhase_line_bitcnt (p : Phase) : (enterPhase p s).line.bitcnt = s.line.bitcnt := rfl
@[simp] theorem enterPhase_line_shreg (p : Phase) : (enterPhase p s).line.shreg = s.line.shreg := rfl
@[simp] theorem enterPhase_line_ackbit (p : Phase) : (enterPhase p s).line.ackbit = s.line.ackbit := rfl
@[simp] theorem enterPhase_line_sdaO (p : Phase) : (enterPhase p s).line.sdaO = s.line.sdaO := rfl
@[simp] theorem enterPhase_line_sclO (p : Phase) : (enterPhase p s).line.sclO = s.line.sclO := rfl
@[simp] theorem enterPhase_line_sdaQ (p : Phase) : (enterPhase p s).line.sdaQ = s.line.sdaQ := rfl
@[simp] theorem enterPhase_line_sclQ (p : Phase) : (enterPhase p s).line.sclQ = s.line.sclQ := rfl
@[simp] theorem enterPhase_line_busyDet (p : Phase) : (enterPhase p s).line.busyDet = s.line.busyDet := rfl
@[simp] theorem enterPhase_timer (p : Phase) : (enterPhase p s).timer = s.timer := rfl
@[simp] theorem enterPhase_bAdd (p : Phase) : (enterPhase p s).bAdd = s.bAdd := rfl
@[simp] theorem enterPhase_bSet (p : Phase) : (enterPhase p s).bSet = s.bSet := rfl
@[simp] theorem enterPhase_buffer (p : Phase) : (enterPhase p s).buffer = s.buffer := rfl
@[simp] theorem enterPhase_io (p : Phase) : (enterPhase p s).io = s.io := rfl
@[simp] theorem enterPhase_par (p : Phase) : (enterPhase p s).par = s.par := rfl

-- abort

@[simp] theorem abort_seq (e : BitVec 4) : (abort e s).seq = s.seq := rfl
@[simp] theorem abort_link_evPending (e : BitVec 4) : (abort e s).link.evPending = true := rfl
@[simp] theorem abort_link_evCode (e : BitVec 4) : (abort e s).link.evCode = e := rfl
@[simp] theorem abort_link_actValid (e : BitVec 4) : (abort e s).link.actValid = s.link.actValid := rfl
@[simp] theorem abort_link_actCode (e : BitVec 4) : (abort e s).link.actCode = s.link.actCode := rfl
@[simp] theorem abort_link_dreg (e : BitVec 4) : (abort e s).link.dreg = s.link.dreg := rfl
@[simp] theorem abort_line_ph (e : BitVec 4) : (abort e s).line.ph = .idle := rfl
@[simp] theorem abort_line_qcnt (e : BitVec 4) : (abort e s).line.qcnt = 0 := rfl
@[simp] theorem abort_line_unit (e : BitVec 4) : (abort e s).line.unit = s.line.unit := rfl
@[simp] theorem abort_line_bitcnt (e : BitVec 4) : (abort e s).line.bitcnt = s.line.bitcnt := rfl
@[simp] theorem abort_line_shreg (e : BitVec 4) : (abort e s).line.shreg = s.line.shreg := rfl
@[simp] theorem abort_line_ackbit (e : BitVec 4) : (abort e s).line.ackbit = s.line.ackbit := rfl
@[simp] theorem abort_line_sdaO (e : BitVec 4) : (abort e s).line.sdaO = true := rfl
@[simp] theorem abort_line_sclO (e : BitVec 4) : (abort e s).line.sclO = true := rfl
@[simp] theorem abort_line_sdaQ (e : BitVec 4) : (abort e s).line.sdaQ = s.line.sdaQ := rfl
@[simp] theorem abort_line_sclQ (e : BitVec 4) : (abort e s).line.sclQ = s.line.sclQ := rfl
@[simp] theorem abort_line_busyDet (e : BitVec 4) : (abort e s).line.busyDet = s.line.busyDet := rfl
@[simp] theorem abort_timer (e : BitVec 4) : (abort e s).timer = s.timer := rfl
@[simp] theorem abort_bAdd (e : BitVec 4) : (abort e s).bAdd = s.bAdd := rfl
@[simp] theorem abort_bSet (e : BitVec 4) : (abort e s).bSet = s.bSet := rfl
@[simp] theorem abort_buffer (e : BitVec 4) : (abort e s).buffer = s.buffer := rfl
@[simp] theorem abort_io (e : BitVec 4) : (abort e s).io = s.io := rfl
@[simp] theorem abort_par (e : BitVec 4) : (abort e s).par = s.par := rfl

-- driveSda

@[simp] theorem driveSda_seq (b : Bool) : (driveSda b s).seq = s.seq := rfl
@[simp] theorem driveSda_link (b : Bool) : (driveSda b s).link = s.link := rfl
@[simp] theorem driveSda_line_ph (b : Bool) : (driveSda b s).line.ph = s.line.ph := rfl
@[simp] theorem driveSda_line_qcnt (b : Bool) : (driveSda b s).line.qcnt = s.line.qcnt := rfl
@[simp] theorem driveSda_line_unit (b : Bool) : (driveSda b s).line.unit = s.line.unit := rfl
@[simp] theorem driveSda_line_bitcnt (b : Bool) : (driveSda b s).line.bitcnt = s.line.bitcnt := rfl
@[simp] theorem driveSda_line_shreg (b : Bool) : (driveSda b s).line.shreg = s.line.shreg := rfl
@[simp] theorem driveSda_line_ackbit (b : Bool) : (driveSda b s).line.ackbit = s.line.ackbit := rfl
@[simp] theorem driveSda_line_sdaO (b : Bool) : (driveSda b s).line.sdaO = b := rfl
@[simp] theorem driveSda_line_sclO (b : Bool) : (driveSda b s).line.sclO = s.line.sclO := rfl
@[simp] theorem driveSda_line_sdaQ (b : Bool) : (driveSda b s).line.sdaQ = s.line.sdaQ := rfl
@[simp] theorem driveSda_line_sclQ (b : Bool) : (driveSda b s).line.sclQ = s.line.sclQ := rfl
@[simp] theorem driveSda_line_busyDet (b : Bool) : (driveSda b s).line.busyDet = s.line.busyDet := rfl
@[simp] theorem driveSda_timer (b : Bool) : (driveSda b s).timer = s.timer := rfl
@[simp] theorem driveSda_bAdd (b : Bool) : (driveSda b s).bAdd = s.bAdd := rfl
@[simp] theorem driveSda_bSet (b : Bool) : (driveSda b s).bSet = s.bSet := rfl
@[simp] theorem driveSda_buffer (b : Bool) : (driveSda b s).buffer = s.buffer := rfl
@[simp] theorem driveSda_io (b : Bool) : (driveSda b s).io = s.io := rfl
@[simp] theorem driveSda_par (b : Bool) : (driveSda b s).par = s.par := rfl

-- driveScl

@[simp] theorem driveScl_seq (b : Bool) : (driveScl b s).seq = s.seq := rfl
@[simp] theorem driveScl_link (b : Bool) : (driveScl b s).link = s.link := rfl
@[simp] theorem driveScl_line_ph (b : Bool) : (driveScl b s).line.ph = s.line.ph := rfl
@[simp] theorem driveScl_line_qcnt (b : Bool) : (driveScl b s).line.qcnt = s.line.qcnt := rfl
@[simp] theorem driveScl_line_unit (b : Bool) : (driveScl b s).line.unit = s.line.unit := rfl
@[simp] theorem driveScl_line_bitcnt (b : Bool) : (driveScl b s).line.bitcnt = s.line.bitcnt := rfl
@[simp] theorem driveScl_line_shreg (b : Bool) : (driveScl b s).line.shreg = s.line.shreg := rfl
@[simp] theorem driveScl_line_ackbit (b : Bool) : (driveScl b s).line.ackbit = s.line.ackbit := rfl
@[simp] theorem driveScl_line_sdaO (b : Bool) : (driveScl b s).line.sdaO = s.line.sdaO := rfl
@[simp] theorem driveScl_line_sclO (b : Bool) : (driveScl b s).line.sclO = b := rfl
@[simp] theorem driveScl_line_sdaQ (b : Bool) : (driveScl b s).line.sdaQ = s.line.sdaQ := rfl
@[simp] theorem driveScl_line_sclQ (b : Bool) : (driveScl b s).line.sclQ = s.line.sclQ := rfl
@[simp] theorem driveScl_line_busyDet (b : Bool) : (driveScl b s).line.busyDet = s.line.busyDet := rfl
@[simp] theorem driveScl_timer (b : Bool) : (driveScl b s).timer = s.timer := rfl
@[simp] theorem driveScl_bAdd (b : Bool) : (driveScl b s).bAdd = s.bAdd := rfl
@[simp] theorem driveScl_bSet (b : Bool) : (driveScl b s).bSet = s.bSet := rfl
@[simp] theorem driveScl_buffer (b : Bool) : (driveScl b s).buffer = s.buffer := rfl
@[simp] theorem driveScl_io (b : Bool) : (driveScl b s).io = s.io := rfl
@[simp] theorem driveScl_par (b : Bool) : (driveScl b s).par = s.par := rfl

-- finish

@[simp] theorem finish_seq_state (o : BusOutcome) : (finish o s).seq.state = .idle := rfl
@[simp] theorem finish_seq_pending (o : BusOutcome) : (finish o s).seq.pending = false := rfl
@[simp] theorem finish_seq_outcome (o : BusOutcome) : (finish o s).seq.outcome = o := rfl
@[simp] theorem finish_seq_finalOutcome (o : BusOutcome) : (finish o s).seq.finalOutcome = s.seq.finalOutcome := rfl
@[simp] theorem finish_seq_addrByte (o : BusOutcome) : (finish o s).seq.addrByte = s.seq.addrByte := rfl
@[simp] theorem finish_seq_dir (o : BusOutcome) : (finish o s).seq.dir = s.seq.dir := rfl
@[simp] theorem finish_seq_bufValid (o : BusOutcome) : (finish o s).seq.bufValid = false := rfl
@[simp] theorem finish_seq_bufStart (o : BusOutcome) : (finish o s).seq.bufStart = s.seq.bufStart := rfl
@[simp] theorem finish_seq_length (o : BusOutcome) : (finish o s).seq.length = s.seq.length := rfl
@[simp] theorem finish_seq_idx (o : BusOutcome) : (finish o s).seq.idx = s.seq.idx := rfl
@[simp] theorem finish_seq_subAcc (o : BusOutcome) : (finish o s).seq.subAcc = s.seq.subAcc := rfl
@[simp] theorem finish_seq_treq (o : BusOutcome) : (finish o s).seq.treq = s.seq.treq := rfl
@[simp] theorem finish_seq_tptr (o : BusOutcome) : (finish o s).seq.tptr = s.seq.tptr := rfl
@[simp] theorem finish_seq_tlen (o : BusOutcome) : (finish o s).seq.tlen = s.seq.tlen := rfl
@[simp] theorem finish_link (o : BusOutcome) : (finish o s).link = s.link := rfl
@[simp] theorem finish_line (o : BusOutcome) : (finish o s).line = s.line := rfl
@[simp] theorem finish_timer (o : BusOutcome) : (finish o s).timer = s.timer := rfl
@[simp] theorem finish_bAdd (o : BusOutcome) : (finish o s).bAdd = s.bAdd := rfl
@[simp] theorem finish_bSet (o : BusOutcome) : (finish o s).bSet = s.bSet := rfl
@[simp] theorem finish_buffer (o : BusOutcome) : (finish o s).buffer = s.buffer := rfl
@[simp] theorem finish_io (o : BusOutcome) : (finish o s).io = s.io := rfl
@[simp] theorem finish_par (o : BusOutcome) : (finish o s).par = s.par := rfl

-- beginStop

@[simp] theorem beginStop_seq_state (o : BusOutcome) (a : BitVec 3) : (beginStop o a s).seq.state = .stopping := rfl
@[simp] theorem beginStop_seq_pending (o : BusOutcome) (a : BitVec 3) : (beginStop o a s).seq.pending = s.seq.pending := rfl
@[simp] theorem beginStop_seq_outcome (o : BusOutcome) (a : BitVec 3) : (beginStop o a s).seq.outcome = s.seq.outcome := rfl
@[simp] theorem beginStop_seq_finalOutcome (o : BusOutcome) (a : BitVec 3) : (beginStop o a s).seq.finalOutcome = o := rfl
@[simp] theorem beginStop_seq_addrByte (o : BusOutcome) (a : BitVec 3) : (beginStop o a s).seq.addrByte = s.seq.addrByte := rfl
@[simp] theorem beginStop_seq_dir (o : BusOutcome) (a : BitVec 3) : (beginStop o a s).seq.dir = s.seq.dir := rfl
@[simp] theorem beginStop_seq_bufValid (o : BusOutcome) (a : BitVec 3) : (beginStop o a s).seq.bufValid = s.seq.bufValid := rfl
@[simp] theorem beginStop_seq_bufStart (o : BusOutcome) (a : BitVec 3) : (beginStop o a s).seq.bufStart = s.seq.bufStart := rfl
@[simp] theorem beginStop_seq_length (o : BusOutcome) (a : BitVec 3) : (beginStop o a s).seq.length = s.seq.length := rfl
@[simp] theorem beginStop_seq_idx (o : BusOutcome) (a : BitVec 3) : (beginStop o a s).seq.idx = s.seq.idx := rfl
@[simp] theorem beginStop_seq_subAcc (o : BusOutcome) (a : BitVec 3) : (beginStop o a s).seq.subAcc = s.seq.subAcc := rfl
@[simp] theorem beginStop_seq_treq (o : BusOutcome) (a : BitVec 3) : (beginStop o a s).seq.treq = s.seq.treq := rfl
@[simp] theorem beginStop_seq_tptr (o : BusOutcome) (a : BitVec 3) : (beginStop o a s).seq.tptr = s.seq.tptr := rfl
@[simp] theorem beginStop_seq_tlen (o : BusOutcome) (a : BitVec 3) : (beginStop o a s).seq.tlen = s.seq.tlen := rfl
@[simp] theorem beginStop_link_evPending (o : BusOutcome) (a : BitVec 3) : (beginStop o a s).link.evPending = s.link.evPending := rfl
@[simp] theorem beginStop_link_evCode (o : BusOutcome) (a : BitVec 3) : (beginStop o a s).link.evCode = s.link.evCode := rfl
@[simp] theorem beginStop_link_actValid (o : BusOutcome) (a : BitVec 3) : (beginStop o a s).link.actValid = true := rfl
@[simp] theorem beginStop_link_actCode (o : BusOutcome) (a : BitVec 3) : (beginStop o a s).link.actCode = a := rfl
@[simp] theorem beginStop_link_dreg (o : BusOutcome) (a : BitVec 3) : (beginStop o a s).link.dreg = s.link.dreg := rfl
@[simp] theorem beginStop_line (o : BusOutcome) (a : BitVec 3) : (beginStop o a s).line = s.line := rfl
@[simp] theorem beginStop_timer (o : BusOutcome) (a : BitVec 3) : (beginStop o a s).timer = s.timer := rfl
@[simp] theorem beginStop_bAdd (o : BusOutcome) (a : BitVec 3) : (beginStop o a s).bAdd = s.bAdd := rfl
@[simp] theorem beginStop_bSet (o : BusOutcome) (a : BitVec 3) : (beginStop o a s).bSet = s.bSet := rfl
@[simp] theorem beginStop_buffer (o : BusOutcome) (a : BitVec 3) : (beginStop o a s).buffer = s.buffer := rfl
@[simp] theorem beginStop_io (o : BusOutcome) (a : BitVec 3) : (beginStop o a s).io = s.io := rfl
@[simp] theorem beginStop_par (o : BusOutcome) (a : BitVec 3) : (beginStop o a s).par = s.par := rfl

-- advance

@[simp] theorem advance_seq : (advance s).seq = s.seq := rfl
@[simp] theorem advance_link : (advance s).link = s.link := rfl
@[simp] theorem advance_line : (advance s).line = s.line := rfl
@[simp] theorem advance_timer : (advance s).timer = s.timer := rfl
@[simp] theorem advance_bAdd : (advance s).bAdd = s.bAdd := rfl
@[simp] theorem advance_bSet : (advance s).bSet = s.bSet := rfl
@[simp] theorem advance_buffer : (advance s).buffer = s.buffer := rfl
@[simp] theorem advance_io_stage : (advance s).io.stage = Stage.after s.io.stage := rfl
@[simp] theorem advance_io_cur : (advance s).io.cur = s.io.cur := rfl
@[simp] theorem advance_io_sdaIn : (advance s).io.sdaIn = s.io.sdaIn := rfl
@[simp] theorem advance_io_sclIn : (advance s).io.sclIn = s.io.sclIn := rfl
@[simp] theorem advance_io_evAtStart : (advance s).io.evAtStart = s.io.evAtStart := rfl
@[simp] theorem advance_io_rdData : (advance s).io.rdData = s.io.rdData := rfl
@[simp] theorem advance_io_script : (advance s).io.script = s.io.script := rfl
@[simp] theorem advance_io_cycle : (advance s).io.cycle = s.io.cycle := rfl
@[simp] theorem advance_par : (advance s).par = s.par := rfl

-- detector

@[simp] theorem detector_seq : (detector s).seq = s.seq := rfl
@[simp] theorem detector_link : (detector s).link = s.link := rfl
@[simp] theorem detector_line_ph : (detector s).line.ph = s.line.ph := rfl
@[simp] theorem detector_line_qcnt : (detector s).line.qcnt = s.line.qcnt := rfl
@[simp] theorem detector_line_unit : (detector s).line.unit = s.line.unit := rfl
@[simp] theorem detector_line_bitcnt : (detector s).line.bitcnt = s.line.bitcnt := rfl
@[simp] theorem detector_line_shreg : (detector s).line.shreg = s.line.shreg := rfl
@[simp] theorem detector_line_ackbit : (detector s).line.ackbit = s.line.ackbit := rfl
@[simp] theorem detector_line_sdaO : (detector s).line.sdaO = s.line.sdaO := rfl
@[simp] theorem detector_line_sclO : (detector s).line.sclO = s.line.sclO := rfl
@[simp] theorem detector_line_sdaQ : (detector s).line.sdaQ = s.io.sdaIn := rfl
@[simp] theorem detector_line_sclQ : (detector s).line.sclQ = s.io.sclIn := rfl
@[simp] theorem detector_line_busyDet : (detector s).line.busyDet = if stopDet s then false else if startDet s then true else s.line.busyDet := rfl
@[simp] theorem detector_timer : (detector s).timer = s.timer := rfl
@[simp] theorem detector_bAdd : (detector s).bAdd = s.bAdd := rfl
@[simp] theorem detector_bSet : (detector s).bSet = s.bSet := rfl
@[simp] theorem detector_buffer : (detector s).buffer = s.buffer := rfl
@[simp] theorem detector_io : (detector s).io = s.io := rfl
@[simp] theorem detector_par : (detector s).par = s.par := rfl

-- withButton

@[simp] theorem withButton_seq (b : Button) (c : PressCounter) : (withButton b c s).seq = s.seq := by cases b <;> rfl
@[simp] theorem withButton_link (b : Button) (c : PressCounter) : (withButton b c s).link = s.link := by cases b <;> rfl
@[simp] theorem withButton_line (b : Button) (c : PressCounter) : (withButton b c s).line = s.line := by cases b <;> rfl
@[simp] theorem withButton_timer (b : Button) (c : PressCounter) : (withButton b c s).timer = s.timer := by cases b <;> rfl
@[simp] theorem withButton_buffer (b : Button) (c : PressCounter) : (withButton b c s).buffer = s.buffer := by cases b <;> rfl
@[simp] theorem withButton_io (b : Button) (c : PressCounter) : (withButton b c s).io = s.io := by cases b <;> rfl
@[simp] theorem withButton_par (b : Button) (c : PressCounter) : (withButton b c s).par = s.par := by cases b <;> rfl
@[simp] theorem withButton_add_bAdd (c : PressCounter) : (withButton .add c s).bAdd = c := rfl
@[simp] theorem withButton_add_bSet (c : PressCounter) : (withButton .add c s).bSet = s.bSet := rfl
@[simp] theorem withButton_set_bSet (c : PressCounter) : (withButton .set c s).bSet = c := rfl
@[simp] theorem withButton_set_bAdd (c : PressCounter) : (withButton .set c s).bAdd = s.bAdd := rfl
@[simp] theorem buttonOf_withButton (b : Button) (c : PressCounter) : buttonOf b (withButton b c s) = c := by
  cases b <;> rfl
@[simp] theorem longTicks_withButton (b d : Button) (c : PressCounter) :
    longTicks b (withButton d c s) = longTicks b s := by cases b <;> cases d <;> rfl
@[simp] theorem pressed_withButton (b d : Button) (c : PressCounter) : pressed b (withButton d c s) = pressed b s := by
  cases b <;> cases d <;> rfl

end Sys2Proof.Machine
end

