-- ==== Sys2Proof/Laws/Memory.lean ====
section
/-! SUPPORT. The laws of the buffer space: a byte read after a write, and every memory operation keeps the canonical
form. -/

namespace Sys2Proof.Machine

@[simp] theorem peek_poke_same (m : Memory) (k : Nat) (v : Byte) : Memory.peek (Memory.poke m k v) k = some v := by
  induction m with
  | nil => simp [Memory.poke, Memory.peek]
  | cons c rest ih =>
    obtain ⟨a, b⟩ := c
    simp only [Memory.poke]
    split
    · simp [Memory.peek]
    · split
      · simp [Memory.peek]
      · rename_i h1 h2
        simp [Memory.peek, Ne.symm h2, ih]

theorem peek_poke_other (m : Memory) {k j : Nat} (v : Byte) (h : j ≠ k) :
    Memory.peek (Memory.poke m k v) j = Memory.peek m j := by
  induction m with
  | nil => simp [Memory.poke, Memory.peek, Ne.symm h]
  | cons c rest ih =>
    obtain ⟨a, b⟩ := c
    simp only [Memory.poke]
    split
    · simp [Memory.peek, Ne.symm h]
    · split
      · rename_i h1 h2
        subst h2
        simp [Memory.peek, Ne.symm h]
      · simp [Memory.peek, ih]

/-- Nothing is listed below the bound of a canonical list. -/
theorem peek_below {lo : Nat} {m : Memory} (h : Memory.wfFrom lo m = true) {k : Nat} (hk : k < lo) :
    Memory.peek m k = none := by
  induction m generalizing lo with
  | nil => rfl
  | cons c rest ih =>
    obtain ⟨a, b⟩ := c
    simp only [Memory.wfFrom, Bool.and_eq_true, decide_eq_true_eq] at h
    have : a ≠ k := by omega
    simp [Memory.peek, this, ih h.2 (by omega)]

theorem wfFrom_poke {lo : Nat} {m : Memory} (h : Memory.wfFrom lo m = true) {k : Nat} (hlo : lo ≤ k)
    (hk : k < 65536) (v : Byte) : Memory.wfFrom lo (Memory.poke m k v) = true := by
  induction m generalizing lo with
  | nil => simp [Memory.poke, Memory.wfFrom, hlo, hk]
  | cons c rest ih =>
    obtain ⟨a, b⟩ := c
    simp only [Memory.wfFrom, Bool.and_eq_true, decide_eq_true_eq] at h
    simp only [Memory.poke]
    split
    · rename_i hlt
      simp only [Memory.wfFrom, Bool.and_eq_true, decide_eq_true_eq]
      exact ⟨⟨hlo, hk⟩, ⟨by omega, h.1.2⟩, h.2⟩
    · split
      · rename_i _ heq
        subst heq
        simp only [Memory.wfFrom, Bool.and_eq_true, decide_eq_true_eq]
        exact ⟨⟨hlo, hk⟩, h.2⟩
      · simp only [Memory.wfFrom, Bool.and_eq_true, decide_eq_true_eq]
        exact ⟨h.1, ih h.2 (by omega)⟩

theorem memWrite_wf {m : Memory} (h : Memory.wf m = true) (a : BufAddr) (v : Byte) :
    Memory.wf (memWrite a v m) = true :=
  wfFrom_poke h (Nat.zero_le _) a.isLt v

theorem hostStores_wf (l : List (BufAddr × Byte)) {m : Memory} (h : Memory.wf m = true) :
    Memory.wf (hostStores l m) = true := by
  induction l generalizing m with
  | nil => exact h
  | cons c rest ih => exact ih (memWrite_wf h c.1 c.2)

@[simp] theorem memRead_memWrite_same (a : BufAddr) (v : Byte) (m : Memory) : memRead a (memWrite a v m) = v := by
  simp [memRead, memWrite]

theorem memRead_memWrite_other {a k : BufAddr} (v : Byte) (m : Memory) (h : k ≠ a) :
    memRead k (memWrite a v m) = memRead k m := by
  have : k.toNat ≠ a.toNat := fun e => h (BitVec.eq_of_toNat_eq e)
  simp [memRead, memWrite, peek_poke_other m v this]

/-- What `MemWrite` does to every read (R46). -/
theorem memRead_memWrite (a k : BufAddr) (v : Byte) (m : Memory) :
    memRead k (memWrite a v m) = if k = a then v else memRead k m := by
  split
  · rename_i h; subst h; simp
  · rename_i h; exact memRead_memWrite_other v m h

/-- What the host's stores of a cycle do to every read: the last one to an address counts (R42). -/
theorem memRead_hostStores (k : BufAddr) (l : List (BufAddr × Byte)) (m : Memory) :
    memRead k (hostStores l m) =
      (((l.filter fun q => decide (q.1 = k)).map Prod.snd).getLast?).getD (memRead k m) := by
  induction l generalizing m with
  | nil => rfl
  | cons c rest ih =>
    obtain ⟨a, v⟩ := c
    rw [hostStores, ih, memRead_memWrite]
    by_cases h : a = k
    · subst h
      cases hr : ((rest.filter fun q => decide (q.1 = a)).map Prod.snd) <;> simp [hr, List.getLast?_cons]
    · simp [h, Ne.symm h]

/-- The buffer space after reset is canonical. -/
theorem reset_buffer_wf : Memory.wf State.reset.buffer = true := rfl

end Sys2Proof.Machine
end

