-- ==== Sys2Proof/Laws/Ops.lean ====
section
/-! SUPPORT. What each shared operation can do, said once: the provers cite these instead of unfolding it. -/

namespace Sys2Proof.Machine

-- Actions ----------------------------------------------------------------------------------------------------------

theorem takeAction_idle (f g : State → State) {s : State} (h : s.line.ph = .idle) :
    takeAction f g s = f (takeLatched s) := by simp [takeAction, h]

theorem takeAction_hold (f g : State → State) {s : State} (h : s.line.ph = .hold) :
    takeAction f g s = g { takeLatched s with line := { s.line with qcnt := 0 } } := by simp [takeAction, h]

/-- Outside `P_IDLE` and `P_HOLD` no action is taken. -/
theorem takeAction_busy (f g : State → State) {s : State} (hi : s.line.ph ≠ .idle) (hh : s.line.ph ≠ .hold) :
    takeAction f g s = s := by
  unfold takeAction
  split <;> simp_all

/-- The eight codes of the action latch, each its own operation. -/
theorem runAction_cases (a : BitVec 3) (s : State) :
    (a = actStartAddr ∧ runAction a s = startAddrOp s) ∨ (a = actSend ∧ runAction a s = sendOp s) ∨
    (a = actRecv ∧ runAction a s = recvOp s) ∨ (a = actAckRecv ∧ runAction a s = ackRecvOp s) ∨
    (a = actNackStop ∧ runAction a s = nackStopOp s) ∨ (a = actStop ∧ runAction a s = stopOp s) ∨
    ((a = actNone ∨ a = actReserved7) ∧ runAction a s = reservedOp s) := by
  have key : ∀ a : BitVec 3, a = 0 ∨ a = 1 ∨ a = 2 ∨ a = 3 ∨ a = 4 ∨ a = 5 ∨ a = 6 ∨ a = 7 := by decide
  rcases key a with rfl | rfl | rfl | rfl | rfl | rfl | rfl | rfl <;> simp [runAction]

-- Line engine ------------------------------------------------------------------------------------------------------

/-- What a counting phase does in a line step after the detector (R130): abort, wait for SCL, count, or end. -/
theorem countPhase_cases (bad : Bool) (s : State) :
    ((s.line.ph = .q3 ∨ s.line.ph = .q4) ∧ bad = true ∧ countPhase bad s = abort evBusError s) ∨
    (¬((s.line.ph = .q3 ∨ s.line.ph = .q4) ∧ bad = true) ∧
      (((s.line.ph = .q3 ∨ s.line.ph = .sp2) ∧ s.io.sclIn = false ∧
          countPhase bad s = { s with line := { s.line with qcnt := 0 } }) ∨
       (¬((s.line.ph = .q3 ∨ s.line.ph = .sp2) ∧ s.io.sclIn = false) ∧ s.line.qcnt ≠ s.par.qdiv - 1 ∧
          countPhase bad s = { s with line := { s.line with qcnt := s.line.qcnt + 1 } }) ∨
       (¬((s.line.ph = .q3 ∨ s.line.ph = .sp2) ∧ s.io.sclIn = false) ∧ s.line.qcnt = s.par.qdiv - 1 ∧
          countPhase bad s = phaseEnd s))) := by
  unfold countPhase monitored stretchable
  by_cases h1 : (s.line.ph = .q3 ∨ s.line.ph = .q4) ∧ bad = true
  · left; simp [h1]
  · right
    refine ⟨h1, ?_⟩
    have e1 : ((decide (s.line.ph = .q3) || decide (s.line.ph = .q4)) && bad) = false := by
      simpa using h1
    by_cases h2 : (s.line.ph = .q3 ∨ s.line.ph = .sp2) ∧ s.io.sclIn = false
    · left
      refine ⟨h2.1, h2.2, ?_⟩
      rw [if_neg (by simp [e1]), if_pos (by simpa using h2)]
    · right
      have e2 : ¬((decide (s.line.ph = .q3) || decide (s.line.ph = .sp2)) && !s.io.sclIn) = true := by
        simpa using h2
      by_cases h3 : s.line.qcnt = s.par.qdiv - 1
      · right; refine ⟨h2, h3, ?_⟩
        rw [if_neg (by simp [e1]), if_neg e2, if_neg (by simp [h3])]
      · left; refine ⟨h2, h3, ?_⟩
        rw [if_neg (by simp [e1]), if_neg e2, if_pos h3]

/-- A line step in `P_IDLE` or `P_HOLD` (R114, R115). -/
theorem lineStepOp_waiting {s : State} (h : s.line.ph = .idle ∨ s.line.ph = .hold) :
    lineStepOp s = takePending (detector s) := by
  unfold lineStepOp
  rcases h with h | h <;> simp [h]

/-- A line step in any other phase (R130). -/
theorem lineStepOp_counting {s : State} (hi : s.line.ph ≠ .idle) (hh : s.line.ph ≠ .hold) :
    lineStepOp s = countPhase (startDet s || stopDet s) (detector s) := by
  unfold lineStepOp
  split <;> simp_all

/-- The parts of the state a line-engine operation leaves alone. -/
structure LineFrame (s t : State) : Prop where
  seq : t.seq = s.seq
  timer : t.timer = s.timer
  bAdd : t.bAdd = s.bAdd
  bSet : t.bSet = s.bSet
  buffer : t.buffer = s.buffer
  io : t.io = s.io
  par : t.par = s.par

theorem LineFrame.refl (s : State) : LineFrame s s := ⟨rfl, rfl, rfl, rfl, rfl, rfl, rfl⟩

theorem LineFrame.trans {s t u : State} (h : LineFrame s t) (k : LineFrame t u) : LineFrame s u :=
  ⟨k.seq.trans h.seq, k.timer.trans h.timer, k.bAdd.trans h.bAdd, k.bSet.trans h.bSet, k.buffer.trans h.buffer,
    k.io.trans h.io, k.par.trans h.par⟩

theorem detector_lineFrame (s : State) : LineFrame s (detector s) := ⟨rfl, rfl, rfl, rfl, rfl, rfl, rfl⟩

theorem takeAction_lineFrame {f g : State → State} (hf : ∀ s, LineFrame s (f s)) (hg : ∀ s, LineFrame s (g s))
    (s : State) : LineFrame s (takeAction f g s) := by
  unfold takeAction
  split
  · have h := hf (takeLatched s)
    exact ⟨h.seq, h.timer, h.bAdd, h.bSet, h.buffer, h.io, h.par⟩
  · have h := hg { takeLatched s with line := { s.line with qcnt := 0 } }
    exact ⟨h.seq, h.timer, h.bAdd, h.bSet, h.buffer, h.io, h.par⟩
  all_goals exact LineFrame.refl s

theorem runAction_lineFrame (a : BitVec 3) (s : State) : LineFrame s (runAction a s) := by
  have d : ∀ s, LineFrame s (dropped s) := LineFrame.refl
  rcases runAction_cases a s with ⟨-, h⟩ | ⟨-, h⟩ | ⟨-, h⟩ | ⟨-, h⟩ | ⟨-, h⟩ | ⟨-, h⟩ | ⟨-, h⟩ <;> rw [h]
  · unfold startAddrOp
    refine takeAction_lineFrame (fun s => ?_) d s
    exact ⟨rfl, rfl, rfl, rfl, rfl, rfl, rfl⟩
  · unfold sendOp
    refine takeAction_lineFrame d (fun s => ?_) s
    exact ⟨rfl, rfl, rfl, rfl, rfl, rfl, rfl⟩
  · unfold recvOp
    refine takeAction_lineFrame d (fun s => ?_) s
    exact ⟨rfl, rfl, rfl, rfl, rfl, rfl, rfl⟩
  · unfold ackRecvOp
    refine takeAction_lineFrame d (fun s => ?_) s
    exact ⟨rfl, rfl, rfl, rfl, rfl, rfl, rfl⟩
  · unfold nackStopOp
    refine takeAction_lineFrame d (fun s => ?_) s
    exact ⟨rfl, rfl, rfl, rfl, rfl, rfl, rfl⟩
  · unfold stopOp
    refine takeAction_lineFrame d (fun s => ?_) s
    exact ⟨rfl, rfl, rfl, rfl, rfl, rfl, rfl⟩
  · exact takeAction_lineFrame d d s

theorem endSt0_lineFrame (s : State) : LineFrame s (endSt0 s) := by
  unfold endSt0; split <;> exact ⟨rfl, rfl, rfl, rfl, rfl, rfl, rfl⟩

theorem endQ3_lineFrame (s : State) : LineFrame s (endQ3 s) := by
  unfold endQ3 sampleCell
  repeat' split
  all_goals exact ⟨rfl, rfl, rfl, rfl, rfl, rfl, rfl⟩

theorem endQ4_lineFrame (s : State) : LineFrame s (endQ4 s) := by
  unfold endQ4 endCell
  repeat' split
  all_goals exact ⟨rfl, rfl, rfl, rfl, rfl, rfl, rfl⟩

theorem endSp3_lineFrame (s : State) : LineFrame s (endSp3 s) := by
  unfold endSp3; split <;> exact ⟨rfl, rfl, rfl, rfl, rfl, rfl, rfl⟩

theorem phaseEnd_lineFrame (s : State) : LineFrame s (phaseEnd s) := by
  unfold phaseEnd
  split
  · exact endSt0_lineFrame s
  · exact ⟨rfl, rfl, rfl, rfl, rfl, rfl, rfl⟩
  · exact ⟨rfl, rfl, rfl, rfl, rfl, rfl, rfl⟩
  · exact ⟨rfl, rfl, rfl, rfl, rfl, rfl, rfl⟩
  · exact ⟨rfl, rfl, rfl, rfl, rfl, rfl, rfl⟩
  · exact endQ3_lineFrame s
  · exact endQ4_lineFrame s
  · exact ⟨rfl, rfl, rfl, rfl, rfl, rfl, rfl⟩
  · exact ⟨rfl, rfl, rfl, rfl, rfl, rfl, rfl⟩
  · exact ⟨rfl, rfl, rfl, rfl, rfl, rfl, rfl⟩
  · exact endSp3_lineFrame s
  all_goals exact LineFrame.refl s

theorem countPhase_lineFrame (bad : Bool) (s : State) : LineFrame s (countPhase bad s) := by
  rcases countPhase_cases bad s with ⟨-, -, h⟩ | ⟨-, ⟨-, -, h⟩ | ⟨-, -, h⟩ | ⟨-, -, h⟩⟩ <;> rw [h]
  · exact ⟨rfl, rfl, rfl, rfl, rfl, rfl, rfl⟩
  · exact ⟨rfl, rfl, rfl, rfl, rfl, rfl, rfl⟩
  · exact ⟨rfl, rfl, rfl, rfl, rfl, rfl, rfl⟩
  · exact phaseEnd_lineFrame s

/-- A line step writes only the line engine and the latches (R17 to R19, R16). -/
theorem lineStepOp_lineFrame (s : State) : LineFrame s (lineStepOp s) := by
  by_cases hi : s.line.ph = .idle
  · rw [lineStepOp_waiting (.inl hi)]
    unfold takePending
    split
    · exact (detector_lineFrame s).trans (runAction_lineFrame _ _)
    · exact detector_lineFrame s
  · by_cases hh : s.line.ph = .hold
    · rw [lineStepOp_waiting (.inr hh)]
      unfold takePending
      split
      · exact (detector_lineFrame s).trans (runAction_lineFrame _ _)
      · exact detector_lineFrame s
    · rw [lineStepOp_counting hi hh]
      exact (detector_lineFrame s).trans (countPhase_lineFrame _ _)

-- Handler ----------------------------------------------------------------------------------------------------------

/-- The parts of the state a handler arm leaves alone. -/
structure ArmFrame (s t : State) : Prop where
  line : t.line = s.line
  timer : t.timer = s.timer
  bAdd : t.bAdd = s.bAdd
  bSet : t.bSet = s.bSet
  io : t.io = s.io
  par : t.par = s.par
  evPending : t.link.evPending = false
  evCode : t.link.evCode = s.link.evCode

/-- What `H_READ_BYTE` can do (R91): store and ask for more, store and stop, or stop. -/
theorem readByteArm_cases (s : State) :
    (s.seq.idx < s.seq.length ∧ s.seq.idx + 1 < s.seq.length ∧
      readByteArm s = { s with
        buffer := memWrite (bufferAddress s) s.link.dreg s.buffer
        seq := { s.seq with idx := s.seq.idx + 1 }
        link := { s.link with evPending := false, actCode := actAckRecv, actValid := true } }) ∨
    (s.seq.idx < s.seq.length ∧ ¬s.seq.idx + 1 < s.seq.length ∧
      readByteArm s = { s with
        buffer := memWrite (bufferAddress s) s.link.dreg s.buffer
        seq := { s.seq with idx := s.seq.idx + 1, finalOutcome := .success, state := .stopping }
        link := { s.link with evPending := false, actCode := actNackStop, actValid := true } }) ∨
    (¬s.seq.idx < s.seq.length ∧
      readByteArm s = { s with
        seq := { s.seq with finalOutcome := .success, state := .stopping }
        link := { s.link with evPending := false, actCode := actNackStop, actValid := true } }) := by
  have e : readByteArm s = continueRead (storeReceived (takeEvent s)) := rfl
  by_cases h : s.seq.idx < s.seq.length
  · have e1 : storeReceived (takeEvent s) = { takeEvent s with
        buffer := memWrite (bufferAddress s) s.link.dreg s.buffer, seq := { s.seq with idx := s.seq.idx + 1 } } :=
      if_pos h
    by_cases k : s.seq.idx + 1 < s.seq.length
    · left
      refine ⟨h, k, ?_⟩
      rw [e, e1]
      exact if_pos k
    · right; left
      refine ⟨h, k, ?_⟩
      rw [e, e1]
      exact if_neg k
  · right; right
    refine ⟨h, ?_⟩
    have e1 : storeReceived (takeEvent s) = takeEvent s := if_neg h
    rw [e, e1]
    exact if_neg h

theorem readByteArm_frame (s : State) : ArmFrame s (readByteArm s) := by
  rcases readByteArm_cases s with ⟨-, -, h⟩ | ⟨-, -, h⟩ | ⟨-, h⟩ <;> rw [h] <;>
    exact ⟨rfl, rfl, rfl, rfl, rfl, rfl, rfl, rfl⟩

/-- An arm writes only the sequencer, the action latch, `dreg` and the buffer space, and takes the event (R93). -/
theorem runArm_frame (a : Arm) (s : State) : ArmFrame s (runArm a s) := by
  cases a <;> first
    | exact readByteArm_frame s
    | exact ⟨rfl, rfl, rfl, rfl, rfl, rfl, rfl, rfl⟩

-- Timer and buttons ------------------------------------------------------------------------------------------------

/-- A sample of a button replaces what is held for that button and nothing else. -/
theorem buttonSample_eq (b : Button) (s : State) :
    buttonSample b s = withButton b
      (if pressed b s then pressSample (longTicks b s) (buttonOf b s) else releaseSample (buttonOf b s)) s := by
  unfold buttonSample samplePressedOp sampleReleasedOp
  split <;> rfl

/-- A tick sets its flag and replaces the two press counters (R141, R160). -/
theorem tickOp_eq (s : State) :
    tickOp s = { s with
      timer := { s.timer with tickPending := true }
      bAdd := if pressed .add s then pressSample s.par.longAdd s.bAdd else releaseSample s.bAdd
      bSet := if pressed .set s then pressSample s.par.longSet s.bSet else releaseSample s.bSet } := by
  unfold tickOp
  rw [buttonSample_eq .set, buttonSample_eq .add]
  rfl

/-- A pressed sample that reaches the threshold (R162). -/
theorem pressSample_cross {lt : Byte} {c : PressCounter} (h : c.active + 1 = lt) :
    pressSample lt c =
      { active := 0, longFired := true, bev := if c.longFired then .none else .longPress } := by
  have e : pressSample lt c =
      { active := 0, longFired := true,
        bev := if c.longFired then (if c.active = 0 ∧ c.longFired = false then .pressed else .none)
          else .longPress } := if_pos h
  rw [e]
  cases c.longFired <;> simp

/-- A pressed sample below the threshold (R162). -/
theorem pressSample_count {lt : Byte} {c : PressCounter} (h : c.active + 1 ≠ lt) :
    pressSample lt c =
      { active := c.active + 1, longFired := c.longFired,
        bev := if c.active = 0 ∧ c.longFired = false then .pressed else .none } := if_neg h

/-- A released sample after a hold (R163). -/
theorem releaseSample_held {c : PressCounter} (h : c.active ≠ 0 ∨ c.longFired = true) :
    releaseSample c = { active := 0, longFired := false, bev := .released c.longFired } := if_pos h

/-- A released sample of a button that was not held (R163). -/
theorem releaseSample_idle {c : PressCounter} (h : c.active = 0) (k : c.longFired = false) :
    releaseSample c = { active := 0, longFired := false, bev := .none } := by
  obtain ⟨a, l, b⟩ := c
  cases h; cases k
  rfl

/-- What the second counter step can do (R142). -/
theorem secStepOp_cases (s : State) :
    (s.timer.running = false ∧ secStepOp s = s) ∨
    (s.timer.running = true ∧ s.timer.count.toNat = 2 ^ s.par.cw.val - 1 ∧
      secStepOp s = { s with timer := { s.timer with count := 0, secPending := true } }) ∨
    (s.timer.running = true ∧ s.timer.count.toNat ≠ 2 ^ s.par.cw.val - 1 ∧
      secStepOp s = { s with timer := { s.timer with count := toCount s (s.timer.count + 1) } }) := by
  unfold secStepOp
  by_cases h : s.timer.running = true
  · by_cases k : s.timer.count.toNat = 2 ^ s.par.cw.val - 1
    · right; left; refine ⟨h, k, ?_⟩; rw [if_pos h, if_pos k]
    · right; right; refine ⟨h, k, ?_⟩; rw [if_pos h, if_neg k]
  · left; refine ⟨by simpa using h, ?_⟩; rw [if_neg h]

-- Widths -----------------------------------------------------------------------------------------------------------

/-- Truncation is the remainder by `2^w` (00_scope.md section 5). -/
@[simp] theorem toNat_fit (w : Nat) (v : BitVec 16) : (fit w v).toNat = v.toNat % 2 ^ w := by
  have h : v.toNat % 2 ^ w < 2 ^ 16 := Nat.lt_of_le_of_lt (Nat.mod_le _ _) v.isLt
  simp only [fit, BitVec.toNat_ofNat]
  exact Nat.mod_eq_of_lt h

/-- A truncated value has the width. -/
theorem fit_lt (w : Nat) (v : BitVec 16) : (fit w v).toNat < 2 ^ w := by
  rw [toNat_fit]; exact Nat.mod_lt _ (Nat.two_pow_pos w)

/-- Truncation leaves a value of the width alone. -/
theorem fit_of_lt {w : Nat} {v : BitVec 16} (h : v.toNat < 2 ^ w) : fit w v = v :=
  BitVec.eq_of_toNat_eq (by rw [toNat_fit, Nat.mod_eq_of_lt h])

/-- A width of R3's parameters divides the 16 bits of a register. -/
theorem two_pow_width (w : Fin 17) : 2 ^ w.val ∣ 65536 := Nat.pow_dvd_pow 2 (Nat.lt_succ_iff.mp w.isLt)

/-- The effective address is the sum modulo `2^AW` (R47). -/
theorem bufferAddress_toNat (s : State) :
    (bufferAddress s).toNat = (s.seq.bufStart.toNat + s.seq.idx.toNat) % 2 ^ s.par.aw.val := by
  rw [bufferAddress, toNat_fit, BitVec.toNat_add]
  exact Nat.mod_mod_of_dvd _ (two_pow_width s.par.aw)

-- Steps ------------------------------------------------------------------------------------------------------------

/-- What a step can do: sample the inputs, pass a stage whose agent does not step, or run one operation (R5, R6). -/
theorem step_cases {s t : State} (h : step s = .next t) :
    (s.io.stage = .sample ∧ t = sampleInputs s) ∨
    (s.io.stage ≠ .sample ∧ currentInstr s = none ∧ t = advance s) ∨
    (s.io.stage ≠ .sample ∧ ∃ i u, currentInstr s = some i ∧ exec i s = .next u ∧ t = advance u) := by
  unfold step at h
  have run : ∀ o : Option Instr, (match o with
      | none => (.next (advance s) : Result)
      | some i => onNext advance (exec i s)) = .next t →
      (o = none ∧ t = advance s) ∨ ∃ i u, o = some i ∧ exec i s = .next u ∧ t = advance u := by
    intro o ho
    cases o with
    | none => left; exact ⟨rfl, by cases ho; rfl⟩
    | some i =>
      right
      simp only at ho
      cases hx : exec i s with
      | next u => rw [hx] at ho; simp only [onNext] at ho; cases ho; exact ⟨i, u, rfl, hx, rfl⟩
      | fault r => exact r.casesOn
      | refused r => rw [hx] at ho; simp [onNext] at ho
  cases hs : s.io.stage with
  | sample => rw [hs] at h; cases h; exact .inl ⟨rfl, rfl⟩
  | timebase => rw [hs] at h; rcases run _ h with ⟨a, b⟩ | ⟨i, u, a, b, c⟩ <;> simp_all
  | line => rw [hs] at h; rcases run _ h with ⟨a, b⟩ | ⟨i, u, a, b, c⟩ <;> simp_all
  | handler => rw [hs] at h; rcases run _ h with ⟨a, b⟩ | ⟨i, u, a, b, c⟩ <;> simp_all
  | host => rw [hs] at h; rcases run _ h with ⟨a, b⟩ | ⟨i, u, a, b, c⟩ <;> simp_all

/-- Sampling without reset (R6 stage 1). -/
theorem sampleInputs_run {s : State} (h : (nextStimulus s).rst = false) :
    sampleInputs s = sampleAs (nextStimulus s) s := by
  unfold sampleInputs
  have : (sampleAs (nextStimulus s) s).io.cur = nextStimulus s := rfl
  simp [this, h]

/-- A reset cycle (R230). -/
theorem sampleInputs_reset {s : State} (h : (nextStimulus s).rst = true) :
    sampleInputs s = answerInReset (resetBlock (sampleAs (nextStimulus s) s)) := by
  unfold sampleInputs
  have : (sampleAs (nextStimulus s) s).io.cur = nextStimulus s := rfl
  simp [this, h]

/-- The answer of a read in a reset cycle is all that `answerInReset` writes. -/
theorem answerInReset_eq (s : State) :
    answerInReset s = { s with io := { s.io with rdData := (answerInReset s).io.rdData } } := by
  unfold answerInReset
  split
  · rfl
  · split <;> rfl

end Sys2Proof.Machine
end

