-- ==== Sys2Proof/Laws/Steps.lean ====
section
/-! SUPPORT. What one step of the machine can do, stage by stage, what an access of the host can do, and the
repetition of `POLL`. -/

namespace Sys2Proof.Machine

/-- Every operation answers a next state. -/
theorem exec_next (i : Instr) (s : State) : ∃ t, exec i s = .next t := by
  cases i <;> exact ⟨_, rfl⟩

/-- The five stages of a cycle (R6): sample, pass, or run the stage's operation. -/
theorem step_stages {s t : State} (h : step s = .next t) :
    (s.io.stage = .sample ∧ t = sampleInputs s) ∨
    (s.io.stage ≠ .sample ∧ t = advance s) ∨
    (s.io.stage = .timebase ∧ t = advance (tbStepOp s)) ∨
    (s.io.stage = .line ∧ t = advance (lineStepOp s)) ∨
    (s.io.stage = .handler ∧ s.io.evAtStart = true ∧
      t = advance (runArm (selectArm s.link.evCode (armContext s)) s)) ∨
    (s.io.stage = .host ∧ ∃ w u, exec (decodeAccess w) s = .next u ∧ t = advance u) := by
  rcases step_cases h with h | ⟨h1, -, h2⟩ | ⟨h1, i, u, hi, he, ht⟩
  · exact .inl h
  · exact .inr (.inl ⟨h1, h2⟩)
  · unfold currentInstr at hi
    cases hs : s.io.stage <;> rw [hs] at hi <;> simp only at hi
    · exact absurd hs h1
    · split at hi <;> cases hi
      right; right; left
      exact ⟨rfl, by rw [ht, ← Host.Outcome.next.inj he]⟩
    · split at hi <;> cases hi
      right; right; right; left
      exact ⟨rfl, by rw [ht, ← Host.Outcome.next.inj he]⟩
    · split at hi
      · rename_i hen
        cases hi
        right; right; right; right; left
        refine ⟨rfl, ?_, by rw [ht, ← Host.Outcome.next.inj he]⟩
        simp only [handlerEnabled, Bool.and_eq_true] at hen
        exact hen.1.2
      · cases hi
    · right; right; right; right; right
      refine ⟨rfl, ?_⟩
      cases hc : s.io.cur.access with
      | none => rw [hc] at hi; cases hi
      | some w => rw [hc] at hi; cases hi; exact ⟨w, u, he, ht⟩

/-- What an access of the host can do to the state (R45, R54, R60 to R66). -/
inductive HostEffect (s : State) : State → Prop
  /-- A read, or a write that changes nothing. -/
  | port (r : Option Reg) : HostEffect s { s with io := { s.io with rdData := r } }
  /-- An accepted `SUBMIT`. -/
  | submit (hp : s.seq.pending = false) (hb : busIdle s = true) : HostEffect s (acceptTransfer s)
  /-- A rejected `SUBMIT`. -/
  | reject : HostEffect s { s with seq := { s.seq with subAcc := false } }
  /-- A write of an operand of the sequencer. -/
  | operands (a : Byte) (p : BufAddr) (n : BufLen) :
      HostEffect s { s with seq := { s.seq with treq := a, tptr := p, tlen := n } }
  /-- A write or a command of the timer source: the tick divider stays. -/
  | timer (c : Count) (r tp sp : Bool) (tc : Count) :
      HostEffect s { s with timer := { s.timer with
        count := c, running := r, tickPending := tp, secPending := sp, tcount := tc } }

theorem decodeRead_effect {i : BitVec 4} {s u : State} (h : exec (decodeRead i) s = .next u) : HostEffect s u := by
  unfold decodeRead at h
  split at h <;> (rw [← Host.Outcome.next.inj h]; exact .port _)

theorem decodeCommand_effect {i : BitVec 4} {s u : State} (h : exec (decodeCommand i) s = .next u) :
    HostEffect s u := by
  have same : HostEffect s s := .port s.io.rdData
  unfold decodeCommand at h
  split at h <;> rw [← Host.Outcome.next.inj h]
  · exact same
  · split
    · rename_i ha
      simp only [submitAccepted, Bool.and_eq_true, Bool.not_eq_true'] at ha
      exact .submit ha.1 ha.2
    · exact .reject
  · exact .timer _ _ _ _ _
  · exact .timer _ _ _ _ _
  · exact .timer _ _ _ _ _
  · exact .timer _ _ _ _ _
  all_goals exact same

theorem decodeWrite_effect {i : BitVec 4} {d : Reg} {s u : State} (h : exec (decodeWrite i d) s = .next u) :
    HostEffect s u := by
  have same : HostEffect s s := .port s.io.rdData
  unfold decodeWrite at h
  split at h <;> first | exact decodeCommand_effect h | rw [← Host.Outcome.next.inj h]
  case h_3 => exact .operands _ _ _
  case h_4 => exact .operands _ _ _
  case h_5 => exact .operands _ _ _
  case h_7 => exact .timer _ _ _ _ _
  all_goals exact same

/-- Every access of the host is one of these. -/
theorem access_effect {w : AccessWord} {s u : State} (h : exec (decodeAccess w) s = .next u) : HostEffect s u := by
  unfold decodeAccess at h
  split at h
  · exact decodeWrite_effect h
  · exact decodeRead_effect h

/-- A line step at the end of a counting phase that the monitor lets pass and that waits for nothing (R113, R130). -/
theorem lineStepOp_atEnd {s : State} (hq : s.line.qcnt = s.par.qdiv - 1) (hi : s.line.ph ≠ .idle)
    (hh : s.line.ph ≠ .hold) (h1 : (s.line.ph = .q3 ∨ s.line.ph = .q4) → (startDet s || stopDet s) = false)
    (h2 : (s.line.ph = .q3 ∨ s.line.ph = .sp2) → s.io.sclIn = true) : lineStepOp s = phaseEnd (detector s) := by
  rw [lineStepOp_counting hi hh]
  rcases countPhase_cases (startDet s || stopDet s) (detector s) with
    ⟨p, q, -⟩ | ⟨-, ⟨p, q, -⟩ | ⟨-, k, -⟩ | ⟨-, -, h⟩⟩
  · rw [h1 p] at q; cases q
  · have k : s.io.sclIn = false := q
    rw [h2 p] at k; cases k
  · exact absurd hq k
  · exact h

/-- What the detector makes of this cycle's wires (R111). -/
theorem detector_observed (s : State) : Observed s (detector s) := by
  have key : ∀ a b c d e : Bool,
      (if (a && b && !c && d) = true then false else if (a && b && c && !d) = true then true else e) =
        (if a = true ∧ b = true ∧ c = false ∧ d = true then false
        else if a = true ∧ b = true ∧ c = true ∧ d = false then true else e) := by decide
  exact ⟨rfl, key _ _ _ _ _⟩

/-- A tick divider step writes only the timer and the press counters. -/
theorem tickDivide_frame (s : State) : ∃ tm a b, tickDivide s = { s with timer := tm, bAdd := a, bSet := b } := by
  unfold tickDivide
  split
  · rw [tickOp_eq]; exact ⟨_, _, _, rfl⟩
  · exact ⟨_, s.bAdd, s.bSet, rfl⟩

/-- A timebase step writes only the timer and the press counters (R140 to R142). -/
theorem tbStepOp_frame (s : State) : ∃ tm a b, tbStepOp s = { s with timer := tm, bAdd := a, bSet := b } := by
  obtain ⟨tm, a, b, ht⟩ := tickDivide_frame s
  unfold tbStepOp
  rw [ht]
  generalize hX : ({ s with timer := tm, bAdd := a, bSet := b } : State) = X
  rcases secStepOp_cases X with ⟨-, h⟩ | ⟨-, -, h⟩ | ⟨-, -, h⟩ <;> rw [h] <;> subst hX <;> exact ⟨_, _, _, rfl⟩

/-- A repetition of `POLL` (R76): the program stays at it while the answer has bit 0 at 1, and goes on at 0. -/
theorem poll_next (v : Reg) (rest : List HostCycle) (l : List Reg) :
    HostProgram.next (some v) ⟨.poll :: rest, l⟩ = ⟨if v.getLsbD 0 then .poll :: rest else rest, l ++ [v]⟩ := by
  simp only [HostProgram.next, HostCycle.after, pollAgain, Option.toList]
  split <;> simp_all

end Sys2Proof.Machine
end

