-- ==== Sys2Proof/Tests/Slice0.lean ====
section
/-! SUPPORT. Tests. Expected values are those of 95_test_vectors.md (the vector is named at each test) or of the rule
named there, and every state that shows a statement's hypotheses can be met (`witness_…`). -/

namespace Sys2Proof.Tests

open Sys2Proof.Machine

-- WellFormed -------------------------------------------------------------------------------------------------------

/-- R62, R77: opcode 5 is `ACK_SEC`, 8 belongs to the other reserved row. -/
theorem test_wellFormed_refuses_reserved67 :
    (Instr.cmdReserved67 5).wellFormed = false ∧ (Instr.cmdReserved67 8).wellFormed = false := by decide
/-- R62, R77: opcode 7 belongs to the other reserved row. -/
theorem test_wellFormed_refuses_reserved815 :
    (Instr.cmdReserved815 7).wellFormed = false ∧ (Instr.cmdReserved815 0).wellFormed = false := by decide
/-- R85, R93: events 6 and 7 are always `H_FAULT`'s. -/
theorem test_wellFormed_refuses_ignored :
    (Instr.hIgnored 6).wellFormed = false ∧ (Instr.hIgnored 7).wellFormed = false := by decide
/-- The edges of the admitted ranges. -/
theorem test_wellFormed_admits :
    (Instr.cmdReserved67 6).wellFormed = true ∧ (Instr.cmdReserved67 7).wellFormed = true ∧
    (Instr.cmdReserved815 8).wellFormed = true ∧ (Instr.cmdReserved815 15).wellFormed = true ∧
    (Instr.hIgnored 0).wellFormed = true ∧ (Instr.hIgnored 15).wellFormed = true := by decide

-- Decode: the words are written out from R60 (`w` 31, `idx` 19:16, `data` 15:0) -----------------------------------

/-- R60 bit by bit: `WR TREQ, 0x38`, `RD BEV`, `CMD T_STOP`, `WR TPTR, 0x0100`. -/
theorem test_decode_bits :
    decodeAccess 0b10000000000000100000000000111000#32 = .wrTreq 0x38 ∧
    decodeAccess 0b00000000000010010000000000000000#32 = .rdBev ∧
    decodeAccess 0b10000000000000000000000000000011#32 = .cmdTStop ∧
    decodeAccess 0b10000000000000110000000100000000#32 = .wrTptr 0x0100 := by decide
/-- E6 and R61. -/
theorem test_decode_reads :
    decodeAccess 0x00000000#32 = .rdCmd ∧ decodeAccess 0x00010000#32 = .rdStatus ∧
    decodeAccess 0x00020000#32 = .rdTreq ∧ decodeAccess 0x00030000#32 = .rdTptr ∧
    decodeAccess 0x00040000#32 = .rdTlen ∧ decodeAccess 0x00050000#32 = .rdTidx ∧
    decodeAccess 0x00060000#32 = .rdTcount ∧ decodeAccess 0x00070000#32 = .rdTstat ∧
    decodeAccess 0x00080000#32 = .rdTcnt ∧ decodeAccess 0x00090000#32 = .rdBev ∧
    decodeAccess 0x000A0000#32 = .rdBcntAdd ∧ decodeAccess 0x000B0000#32 = .rdBcntSet ∧
    decodeAccess 0x000C0000#32 = .rdBtn ∧ decodeAccess 0x000D0000#32 = .rdRsvd13 ∧
    decodeAccess 0x000E0000#32 = .rdRsvd14 ∧ decodeAccess 0x000F0000#32 = .rdRsvd15 := by decide
/-- E4, E5, E14, E15. -/
theorem test_decode_commands :
    decodeAccess 0x80000000#32 = .cmdNop ∧ decodeAccess 0x80000001#32 = .cmdSubmit ∧
    decodeAccess 0x80000002#32 = .cmdTStart ∧ decodeAccess 0x80000003#32 = .cmdTStop ∧
    decodeAccess 0x80000004#32 = .cmdAckTick ∧ decodeAccess 0x80000005#32 = .cmdAckSec ∧
    decodeAccess 0x80000006#32 = .cmdReserved67 6 ∧ decodeAccess 0x80000007#32 = .cmdReserved67 7 ∧
    decodeAccess 0x80000008#32 = .cmdReserved815 8 ∧ decodeAccess 0x8000000F#32 = .cmdReserved815 15 ∧
    decodeAccess 0x80000011#32 = .cmdSubmit := by decide
/-- E1 to E3, E14, E17 and R61; the last word has every ignored bit set. -/
theorem test_decode_writes :
    decodeAccess 0x80010001#32 = .wrStatus 1 ∧ decodeAccess 0x80020038#32 = .wrTreq 0x38 ∧
    decodeAccess 0x80030100#32 = .wrTptr 0x100 ∧ decodeAccess 0x80040005#32 = .wrTlen 5 ∧
    decodeAccess 0x80050002#32 = .wrTidx 2 ∧ decodeAccess 0x80060105#32 = .wrTcount 261 ∧
    decodeAccess 0x80070003#32 = .wrTstat 3 ∧ decodeAccess 0x80080004#32 = .wrTcnt 4 ∧
    decodeAccess 0x80090006#32 = .wrBev 6 ∧ decodeAccess 0x800A0007#32 = .wrBcntAdd 7 ∧
    decodeAccess 0x800B0008#32 = .wrBcntSet 8 ∧ decodeAccess 0x800C0009#32 = .wrBtn 9 ∧
    decodeAccess 0x800D1234#32 = .wrRsvd13 0x1234 ∧ decodeAccess 0x800EFFFF#32 = .wrRsvd14 0xFFFF ∧
    decodeAccess 0x800F8000#32 = .wrRsvd15 0x8000 ∧ decodeAccess 0xFFF20038#32 = .wrTreq 0x38 := by decide
/-- R70, R93: the codes of the events, written as numbers, and a context of the row's `when`. -/
theorem test_decode_arms :
    decode (.event 3 ⟨false, .writing, false, 1, 2⟩) = .ok (.hSpurious 3) ∧
    decode (.event 6 ⟨true, .writing, false, 1, 2⟩) = .ok .hFaultEvArbLost ∧
    decode (.event 7 ⟨true, .reading, true, 1, 2⟩) = .ok .hFaultEvBusError ∧
    decode (.event 2 ⟨true, .addressing, false, 0, 2⟩) = .ok .hNackEvAddrNack ∧
    decode (.event 4 ⟨true, .writing, false, 2, 2⟩) = .ok .hNackEvDataNack ∧
    decode (.event 8 ⟨true, .stopping, false, 2, 2⟩) = .ok .hStopDone ∧
    decode (.event 1 ⟨true, .addressing, false, 0, 2⟩) = .ok .hWriteNextEvAddrAck ∧
    decode (.event 3 ⟨true, .writing, false, 1, 2⟩) = .ok .hWriteNextEvDataAck ∧
    decode (.event 1 ⟨true, .addressing, false, 0, 0⟩) = .ok .hWriteDoneEvAddrAck ∧
    decode (.event 3 ⟨true, .writing, false, 2, 2⟩) = .ok .hWriteDoneEvDataAck ∧
    decode (.event 1 ⟨true, .addressing, true, 0, 2⟩) = .ok .hReadFirst ∧
    decode (.event 5 ⟨true, .reading, true, 0, 2⟩) = .ok .hReadByte ∧
    decode (.event 5 ⟨true, .writing, false, 0, 2⟩) = .ok (.hIgnored 5) := by decide
/-- R71. -/
theorem test_decode_actions :
    decode (.action 0) = .ok .aNone ∧ decode (.action 1) = .ok .aStartAddr ∧ decode (.action 2) = .ok .aSend ∧
    decode (.action 3) = .ok .aRecv ∧ decode (.action 4) = .ok .aAckRecv ∧ decode (.action 5) = .ok .aNackStop ∧
    decode (.action 6) = .ok .aStop ∧ decode (.action 7) = .ok .aReserved7 := by decide
/-- R77: the one-bit conditions. -/
theorem test_decode_signals :
    decode (.signal .clockEdge true) = .ok .lineStep ∧ decode (.signal .timebase true) = .ok .tbStep ∧
    decode (.signal .tickDue true) = .ok .tick ∧ decode (.signal .secondRunning true) = .ok .secStep ∧
    decode (.signal (.sample .add) true) = .ok (.bSamplePressed .add) ∧
    decode (.signal (.sample .set) false) = .ok (.bSampleReleased .set) ∧
    decode (.signal .handlerReady true) = .ok .handler ∧
    decode (.signal .timebase false) = .error (.conditionIsZero .timebase) := by decide
/-- The host's numbering of a row's word, and a width that no access word has. -/
theorem test_decodeTableWord :
    decodeTableWord 32 0x80000003 = some .cmdTStop ∧ decodeTableWord 32 0x00090000 = some .rdBev ∧
    decodeTableWord 8 3 = none ∧ decodeTableWord 32 (2 ^ 32) = none := by decide

-- States for the tests ---------------------------------------------------------------------------------------------

/-- `QDIV` = 2, the other parameters at R3's values, a line reads 0 when pressed (95_test_vectors.md). -/
def par2 : Params := ⟨2, 8, 32, 64, false, false, 8, 16, 8⟩
/-- The reset state with concrete parameters. -/
def base : State := { State.reset with par := par2 }
/-- The next state of an operation. -/
def after (i : Instr) (s : State) : State :=
  match exec i s with
  | .next t => t
  | .fault _ => s
  | .refused _ => s
/-- `base` with a transfer registered. -/
def busy (st : SeqState) (d : Bool) (i l : BufLen) : State :=
  { base with seq := { base.seq with
      state := st, pending := true, bufValid := true, outcome := .inProgress, dir := d, idx := i, length := l
      bufStart := 0x0100 } }
/-- `s` with an event in the latch. -/
def withEvent (e : BitVec 4) (s : State) : State := { s with link := { s.link with evPending := true, evCode := e } }
/-- `s` with an action in the latch. -/
def withAction (a : BitVec 3) (s : State) : State := { s with link := { s.link with actValid := true, actCode := a } }
/-- `s` with the line engine at the end of a phase. -/
def atEnd (p : Phase) (u : CellUnit) (n : BitVec 4) (s : State) : State :=
  { s with line := { s.line with ph := p, unit := u, bitcnt := n, qcnt := 1 } }
/-- `s` with these wire levels in the cycle. -/
def wires (sda scl : Bool) (s : State) : State := { s with io := { s.io with sdaIn := sda, sclIn := scl } }
/-- `s` in a stage of a cycle with these inputs. -/
def inStage (g : Stage) (x : Stimulus) (s : State) : State := { s with io := { s.io with stage := g, cur := x } }
/-- `s` with the inputs of the next cycles laid down. -/
def scripted (l : List Stimulus) (s : State) : State := { s with io := { s.io with script := l } }

-- One step each ----------------------------------------------------------------------------------------------------

/-- E13: STATUS after reset, both lines high. -/
theorem test_status_after_reset : (after .rdStatus base).io.rdData = some 0x0002 := by decide
/-- E10: STATUS of an accepted transfer, read in the next cycle. -/
theorem test_status_in_progress :
    (after .rdStatus (after .lineStep (after .cmdSubmit base))).io.rdData = some 0x012D := by decide
/-- E12: STATUS after an address NACK. -/
theorem test_status_nacked :
    (after .rdStatus { base with
      seq := { base.seq with subAcc := true, outcome := .addressNack }
      link := { base.link with evCode := 8 } }).io.rdData = some 0x201E := by decide
/-- E16: bits 15:8 of TREQ are ignored. -/
theorem test_treq : (after .rdTreq (after (.wrTreq 0x01B8) base)).io.rdData = some 0x00B8 := by decide
/-- R64: TPTR keeps all 16 bits. -/
theorem test_tptr : (after .rdTptr (after (.wrTptr 0xFFFE) base)).io.rdData = some 0xFFFE := by decide
/-- R64: bits 15:8 of TLEN are ignored. -/
theorem test_tlen : (after .rdTlen (after (.wrTlen 0x0305) base)).io.rdData = some 0x0005 := by decide
/-- P1: TIDX reads the cursor. -/
theorem test_tidx : (after .rdTidx (busy .stopping false 5 5)).io.rdData = some 0x0005 := by decide
/-- E17: TCOUNT is taken modulo 256. -/
theorem test_tcount : (after .rdTcount (after (.wrTcount 261) base)).io.rdData = some 5 := by decide
/-- R3, R64, R65: a build with `CW` = 9, `AW` = 12, `LW` = 4 keeps those bits. -/
theorem test_widths :
    let s := { base with par := { par2 with cw := 9, aw := 12, lw := 4 } }
    (after .rdTcount (after (.wrTcount 0x0305) s)).io.rdData = some 0x0105 ∧
    (after .rdTptr (after (.wrTptr 0xFFFE) s)).io.rdData = some 0x0FFE ∧
    (after .rdTlen (after (.wrTlen 0x0035) s)).io.rdData = some 0x0005 ∧
    (after .secStep { s with timer := { s.timer with running := true, count := 511 } }).timer.secPending = true ∧
    (after .secStep { s with timer := { s.timer with running := true, count := 255 } }).timer.count = 256 := by decide
/-- T5, X4: TSTAT with everything set, and with the second pending while stopped. -/
theorem test_tstat :
    (after .rdTstat { base with timer := { base.timer with running := true, secPending := true, tickPending := true } }
      ).io.rdData = some 0x001F ∧
    (after .rdTstat { base with timer := { base.timer with secPending := true } }).io.rdData = some 0x0002 := by decide
/-- P3: TCNT reads the live counter. -/
theorem test_tcnt : (after .rdTcnt { base with timer := { base.timer with count := 101 } }).io.rdData = some 0x65 := by
  decide
/-- E18: BEV. -/
theorem test_bev :
    (after .rdBev { base with bSet := { base.bSet with bev := .released false } }).io.rdData = some 0x0020 ∧
    (after .rdBev { base with bAdd := { base.bAdd with bev := .longPress } }).io.rdData = some 0x0003 ∧
    (after .rdBev { base with bAdd := { base.bAdd with bev := .released true } }).io.rdData = some 0x0006 ∧
    (after .rdBev { base with bSet := { base.bSet with bev := .pressed } }).io.rdData = some 0x0010 := by decide
/-- K4: BCNT_ADD in tick 40; BCNT_SET reads the other button. -/
theorem test_bcnt :
    (after .rdBcntAdd { base with bAdd := ⟨8, true, .none⟩ }).io.rdData = some 0x0108 ∧
    (after .rdBcntSet { base with bAdd := ⟨8, true, .none⟩, bSet := ⟨2, false, .none⟩ }).io.rdData = some 0x0002 := by
  decide
/-- P4, tick 10 and tick 1: BTN, both pressed, and Add only (a line reads 0 when pressed). -/
theorem test_btn :
    (after .rdBtn base).io.rdData = some 0x0003 ∧
    (after .rdBtn (inStage .host { Stimulus.quiet with btnSet := true } base)).io.rdData = some 0x0001 := by decide
/-- E14, R45: reserved indices and CMD read 0, writes to them and to a read-only register change nothing. -/
theorem test_reserved :
    (after .rdRsvd13 base).io.rdData = some 0 ∧ (after .rdCmd base).io.rdData = some 0 ∧
    after (.wrRsvd13 0x1234) base = base ∧ after (.wrTidx 7) base = base ∧ after (.cmdReserved67 7) base = base ∧
    after (.cmdReserved815 15) base = base ∧ after .cmdNop base = base := by decide

/-- H21: an accepted `SUBMIT`. -/
theorem test_submit_accepted :
    let t := after .cmdSubmit { base with seq := { base.seq with treq := 0x38, tptr := 0x0100, tlen := 2 } }
    t.seq.addrByte = 0x70 ∧ t.seq.dir = false ∧ t.seq.bufStart = 0x0100 ∧ t.seq.length = 2 ∧ t.seq.idx = 0 ∧
    t.seq.bufValid = true ∧ t.seq.pending = true ∧ t.seq.outcome = .inProgress ∧ t.seq.state = .addressing ∧
    t.seq.subAcc = true ∧ t.link.actValid = true ∧ t.link.actCode = 1 := by decide
/-- H22, H23: rejected ones. -/
theorem test_submit_rejected :
    after .cmdSubmit (busy .writing false 1 2) = busy .writing false 1 2 ∧
    after .cmdSubmit (wires true false base) = wires true false base ∧
    after .cmdSubmit { base with line := { base.line with busyDet := true }, seq := { base.seq with subAcc := true } } =
      { base with line := { base.line with busyDet := true } } := by decide
/-- E7, E8: the address byte. -/
theorem test_address_byte :
    addressByte 0x38 = 0x70 ∧ addressByte 0xB8 = 0x71 ∧ addressByte 0xFF = 0xFF ∧ addressByte 0x00 = 0x00 := by decide

/-- T9: a restart while running reloads. -/
theorem test_t_start :
    (after .cmdTStart (after (.wrTcount 200) { base with timer := { base.timer with running := true, count := 15 } })
      ).timer = { base.timer with running := true, count := 200, tcount := 200 } := by decide
/-- P3, cycle 107: the count at the stop. -/
theorem test_t_stop :
    (after .cmdTStop { base with timer := { base.timer with running := true, count := 101 } }).timer =
      { base.timer with count := 101, tcount := 101 } := by decide
/-- T6, P3: the acknowledges clear their flag only. -/
theorem test_acks :
    (after .cmdAckTick { base with timer := { base.timer with tickPending := true, secPending := true } }).timer =
      { base.timer with secPending := true } ∧
    (after .cmdAckSec { base with timer := { base.timer with tickPending := true, secPending := true } }).timer =
      { base.timer with tickPending := true } := by decide

/-- H1, H2: with no transfer an event is dropped. -/
theorem test_spurious : after .handler (withEvent 6 base) = { base with link := { base.link with evCode := 6 } } := by
  decide
/-- H3, H4: arbitration loss and bus error. -/
theorem test_fault :
    (after .handler (withEvent 6 (busy .writing false 1 2))).seq =
      { (busy .writing false 1 2).seq with
        state := .idle, pending := false, bufValid := false, outcome := .arbitrationLost } ∧
    (after .handler (withEvent 7 (busy .reading true 1 2))).seq.outcome = .arbitrationLost ∧
    (after .handler (withEvent 7 (busy .reading true 1 2))).link.actValid = false := by decide
/-- H6, H7: a NACK of the address, and of the last byte. -/
theorem test_nack :
    (after .handler (withEvent 2 (busy .addressing false 0 2))).seq =
      { (busy .stopping false 0 2).seq with finalOutcome := .addressNack } ∧
    (after .handler (withEvent 2 (busy .addressing false 0 2))).link.actCode = 6 ∧
    (after .handler (withEvent 4 (busy .writing false 2 2))).seq.finalOutcome = .addressNack := by decide
/-- H9: the stop is done. -/
theorem test_stop_done :
    let s := { busy .stopping false 2 2 with seq := { (busy .stopping false 2 2).seq with finalOutcome := .addressNack } }
    (after .handler (withEvent 8 s)).seq.outcome = .addressNack ∧
    (after .handler (withEvent 8 s)).seq.state = .idle ∧ (after .handler (withEvent 8 s)).seq.pending = false := by
  decide
/-- H10, H11: the next byte is sent. -/
theorem test_write_next :
    let s := { busy .addressing false 0 2 with buffer := [(0x100, 0xA5), (0x101, 0x3C)] }
    let t := after .handler (withEvent 1 s)
    let u := after .handler (withEvent 3 t)
    t.link.dreg = 0xA5 ∧ t.seq.idx = 1 ∧ t.seq.state = .writing ∧ t.link.actCode = 2 ∧ t.link.actValid = true ∧
    u.link.dreg = 0x3C ∧ u.seq.idx = 2 ∧ u.buffer = s.buffer := by decide
/-- H14: the address wraps. -/
theorem test_write_next_wraps :
    let s := { busy .writing false 1 2 with
      buffer := [(0, 0x77)], seq := { (busy .writing false 1 2).seq with bufStart := 0xFFFF } }
    (after .handler (withEvent 3 s)).link.dreg = 0x77 := by decide
/-- H12, H13: all bytes are sent, and there are none. -/
theorem test_write_done :
    (after .handler (withEvent 3 (busy .writing false 2 2))).seq = (busy .stopping false 2 2).seq ∧
    (after .handler (withEvent 1 (busy .addressing false 0 0))).link.actCode = 6 := by decide
/-- H15: a read begins. -/
theorem test_read_first :
    (after .handler (withEvent 1 (busy .addressing true 0 2))).seq = (busy .reading true 0 2).seq ∧
    (after .handler (withEvent 1 (busy .addressing true 0 2))).link.actCode = 3 := by decide
/-- H16, H17: a byte is stored and more are wanted; the last one. -/
theorem test_read_byte :
    let s := { busy .reading true 0 2 with link := { base.link with dreg := 0x12 } }
    let t := after .handler (withEvent 5 s)
    let u := after .handler (withEvent 5 { t with link := { t.link with dreg := 0xEF } })
    t.buffer = [(0x100, 0x12)] ∧ t.seq.idx = 1 ∧ t.link.actCode = 4 ∧ t.seq.state = .reading ∧
    u.buffer = [(0x100, 0x12), (0x101, 0xEF)] ∧ u.seq.idx = 2 ∧ u.link.actCode = 5 ∧ u.seq.state = .stopping := by decide
/-- H18: a read of length 0 stores nothing. -/
theorem test_read_byte_none :
    (after .handler (withEvent 5 (busy .reading true 0 0))).buffer = [] ∧
    (after .handler (withEvent 5 (busy .reading true 0 0))).seq.state = .stopping := by decide
/-- H20: an event that cannot arise. -/
theorem test_ignored :
    (after .handler (withEvent 5 (busy .writing false 0 2))).seq = (busy .writing false 0 2).seq ∧
    (after .handler (withEvent 5 (busy .writing false 0 2))).link.evPending = false := by decide

/-- L9: an action taken in `P_IDLE` that is not `A_START_ADDR` is dropped. -/
theorem test_action_dropped : after .lineStep (withAction 2 base) = { base with link := { base.link with actCode := 2 } } := by
  decide
/-- L1, cycle 0; L1, cycle 41: the start, and the stop out of `P_HOLD`. -/
theorem test_actions_taken :
    (after .lineStep (withAction 1 base)).line.ph = .st0 ∧
    (after .lineStep (withAction 6 (atEnd .hold .addr 8 base))).line.ph = .sp1 ∧
    (after .lineStep (withAction 6 (atEnd .hold .addr 8 base))).line.sdaO = false := by decide
/-- L2: `A_SEND` of 0xA5 loads the register and drives the first bit. -/
theorem test_send :
    let t := after .aSend { atEnd .hold .addr 8 base with link := { base.link with actValid := true, dreg := 0xA5 } }
    t.line.shreg = 0xA5 ∧ t.line.unit = .tx ∧ t.line.bitcnt = 0 ∧ t.line.ph = .q1 ∧ t.link.actValid = false ∧
    (after .lineStep { t with line := { t.line with qcnt := 1 } }).line.sdaO = true := by decide
/-- R133 to R135: the other units. -/
theorem test_units :
    (after .aRecv (atEnd .hold .addr 8 base)).line.unit = .rx ∧
    (after .aAckRecv (atEnd .hold .rx 7 base)).line.unit = .ack ∧
    (after .aAckRecv (atEnd .hold .rx 7 base)).line.bitcnt = 7 ∧
    (after .aNackStop (atEnd .hold .rx 7 base)).line.unit = .nack := by decide
/-- L3: a received bit. -/
theorem test_receive_bit :
    let s := atEnd .q3 .rx 6 { base with line := { base.line with shreg := 0x04 } }
    (after .lineStep s).line.shreg = 0x09 ∧ (after .lineStep s).line.ph = .q4 := by decide
/-- L4: arbitration lost in the address; L5: at the start. -/
theorem test_arbitration :
    (after .lineStep (wires false true { atEnd .q3 .addr 1 base with line := { (atEnd .q3 .addr 1 base).line with sdaQ := false } }
      )).link.evCode = 6 ∧
    (after .lineStep (wires false true (atEnd .st0 .addr 0 base))).link.evCode = 6 := by decide
/-- L6: SDA falls while SCL is high. -/
theorem test_bus_error :
    let t := after .lineStep (wires false true (atEnd .q4 .rx 3 base))
    t.link.evCode = 7 ∧ t.line.ph = .idle ∧ t.line.busyDet = true ∧ t.line.sclO = true := by decide
/-- L7: a stretched clock; L8: a stop with SDA held. -/
theorem test_waits :
    (after .lineStep (wires true false (atEnd .q3 .tx 3 base))).line.qcnt = 0 ∧
    (after .lineStep (wires false true (atEnd .sp3 .tx 8 base))).line.ph = .sp3 ∧
    (after .lineStep (wires false true (atEnd .sp3 .tx 8 base))).line.qcnt = 1 := by decide
/-- R122: the ninth cell of the address with NACK; L3: a whole received byte. -/
theorem test_byte_events :
    (after .lineStep (atEnd .q4 .addr 8 base)).link.evCode = 2 ∧
    (after .lineStep { atEnd .q4 .rx 7 base with line := { (atEnd .q4 .rx 7 base).line with shreg := 0x12 } }).link.dreg
      = 0x12 ∧
    (after .lineStep (atEnd .q4 .rx 7 base)).link.evCode = 5 := by decide

/-- T4: the eighth pulse ticks; R140: the seventh does not. -/
theorem test_tick_divider :
    (after .tbStep { base with timer := { base.timer with tdiv := 7 } }).timer.tickPending = true ∧
    (after .tbStep { base with timer := { base.timer with tdiv := 6 } }).timer.tickPending = false := by decide
/-- T1: the counter wraps at 255. -/
theorem test_second :
    (after .secStep { base with timer := { base.timer with running := true, count := 255 } }).timer =
      { base.timer with running := true, secPending := true } ∧
    (after .secStep { base with timer := { base.timer with running := true, count := 254 } }).timer.count = 255 := by
  decide
/-- K1, K3: the first pressed sample, and the 32nd. -/
theorem test_pressed_samples :
    (after (.bSamplePressed .add) base).bAdd = ⟨1, false, .pressed⟩ ∧
    (after (.bSamplePressed .add) { base with bAdd := ⟨31, false, .none⟩ }).bAdd = ⟨0, true, .longPress⟩ ∧
    (after (.bSamplePressed .set) { base with bSet := ⟨31, false, .none⟩ }).bSet = ⟨32, false, .none⟩ := by decide
/-- K5: the second crossing of a hold. -/
theorem test_second_crossing :
    (after (.bSamplePressed .add) { base with bAdd := ⟨31, true, .none⟩ }).bAdd = ⟨0, true, .none⟩ ∧
    (after (.bSamplePressed .add) { base with bAdd := ⟨0, true, .none⟩ }).bAdd = ⟨1, true, .none⟩ := by decide
/-- K1, K3, K9: the released samples. -/
theorem test_released_samples :
    (after (.bSampleReleased .add) { base with bAdd := ⟨3, false, .none⟩ }).bAdd = ⟨0, false, .released false⟩ ∧
    (after (.bSampleReleased .add) { base with bAdd := ⟨0, true, .none⟩ }).bAdd = ⟨0, false, .released true⟩ ∧
    (after (.bSampleReleased .set) base).bSet = ⟨0, false, .none⟩ := by decide
/-- K10: both buttons in one tick (both lines read 0). -/
theorem test_tick : (after .rdBev (after .tick base)).io.rdData = some 0x0011 := by decide

/-- The host's parameters with P1's display address. -/
def hp : HostParams := ⟨5999, 10, 60, 0x38, .addFirst, false, 0x0100, 16⟩
/-- What the block shows with a read answered. -/
def answered (v : Reg) : HostSees := ⟨some v, false, false, false⟩

/-- S6, S7, section 1.2 of the test vectors: rows of the application's table. -/
theorem test_application :
    appStep hp .addLong { App.boot with remaining := 5990 } = { App.boot with remaining := 5999 } ∧
    appStep hp .setShort App.boot = { App.boot with led := true } ∧
    appStep hp .setShort { App.boot with remaining := 30 } =
      { App.boot with remaining := 30, preset := 30, phase := .running } ∧
    triggerTasks .setShort { App.boot with remaining := 30 } = [.access 0x80060001, .access 0x80000002] ∧
    triggerTasks .setShort { App.boot with remaining := 30, phase := .running } = [.access 0x80000003, .recordCount] := by
  decide
/-- E1 to E4: the words of the submit procedure. T2: `START 261`. P3: `PULSE 100`, `IDLE`. -/
theorem test_host_lines :
    submitWords 0x38 false 0x0100 5 = [0x80020038, 0x80030100, 0x80040005, 0x80000001, 0x00010000] ∧
    (HostLine.start 261).cycles = [.access 0x80060105, .access 0x80000002] ∧
    (HostLine.pulse 2).cycles = [.pulse, .pulse] ∧
    HostCycle.pulse.inputs Stimulus.quiet = { Stimulus.quiet with tbEn := true } ∧
    (HostLine.idle 3).cycles = [.idle, .idle, .idle] ∧
    submitStores false 0xFFFF [1, 2] = [(0xFFFF, 1), (0, 2)] := by decide
/-- R176, R193: the coordinator's choice, and a request wakes the host, which drives `pd` = 0 before its handler. -/
theorem test_coordinator :
    let h := HostSide.boot.next hp ⟨none, false, false, false⟩
    let k := HostSide.boot.next hp ⟨none, false, false, true⟩
    let w := h.next hp ⟨none, true, false, false⟩
    h.mode = .asleep .powerDown ∧ h.pd = true ∧ k.mode = .asleep .idleSleep ∧ k.pd = false ∧
    w.mode = .handling ∧ w.pd = false ∧ w.access = some 0x80000004 := by decide
/-- P4, tick 12 and tick 32, R191: BEV makes the transition; the changed time is submitted (R190). -/
theorem test_tick_handler :
    let h := { HostSide.boot with mode := .handling, tasks := [.events, .refresh .display] }
    let a := (h.next hp (answered 0x0020)).next hp (answered 0)
    let b := ((h.next hp (answered 0x0003)).next hp (answered 0)).next hp (answered 0)
    h.access = some 0x00090000 ∧ a.app.led = true ∧ a.displayStale = false ∧
    b.app.remaining = 60 ∧ b.displayStale = true ∧ (b.next hp (answered 0)).access = some 0x80020038 := by decide
/-- R192: a rejected submit and a failed transfer leave the display to be submitted again; P1's STATUS values. -/
theorem test_recovery :
    (HostSide.boot.submitResult .display 0x0129).displayStale = true ∧
    (HostSide.boot.submitResult .display 0x012D).inFlight = some .display ∧
    ({ HostSide.boot with inFlight := some .display }.pollResult 0x012D).inFlight = some .display ∧
    ({ HostSide.boot with inFlight := some .display }.pollResult 0x2006).displayStale = false ∧
    ({ HostSide.boot with inFlight := some .display }.pollResult 0x201E).displayStale = true := by decide

-- States that meet the statements' hypotheses ----------------------------------------------------------------------

/-- AccessWordsAreTheSpecsNumbers, NothingTrapsAndReservedCodesAreDropped: words that differ in ignored bits only. -/
theorem witness_ignored_bits :
    (0xFFF20038#32 &&& 0x800FFFFF#32 = 0x80020038#32 &&& 0x800FFFFF#32) ∧
    ((0x0001FFFF#32).getLsbD 31 = false ∧ 0x0001FFFF#32 &&& 0x800F0000#32 = 0x00010000#32 &&& 0x800F0000#32) ∧
    (0x80000011#32 &&& 0x800F0000#32 = 0x80000000#32 ∧
      0x80000011#32 &&& 0x800F000F#32 = 0x80000001#32 &&& 0x800F000F#32) := by decide

/-- HostStageRunsTheDecodedWord: a host stage with an access, and one without. -/
theorem witness_host_stage :
    (inStage .host { Stimulus.quiet with access := some 0x80000001#32 } base).io.stage = .host ∧
    (inStage .host { Stimulus.quiet with access := some 0x80000001#32 } base).io.cur.access = some 0x80000001#32 ∧
    (inStage .host Stimulus.quiet base).io.stage = .host ∧
    (inStage .host Stimulus.quiet base).io.cur.access = none := by decide

/-- AgentStagesRunTheirOperation: each stage with its agent stepping, and not. -/
theorem witness_agent_stages :
    (inStage .timebase { Stimulus.quiet with tbEn := true } base).io.stage = .timebase ∧
    (inStage .line { Stimulus.quiet with pd := true } base).io.stage = .line ∧
    (inStage .handler { Stimulus.quiet with handlerGo := true } base).io.stage = .handler := by decide

/-- SamplingTakesTheCyclesInputs: a cycle without reset. -/
theorem witness_sampling :
    (scripted [Stimulus.quiet] base).io.stage = .sample ∧
    (nextStimulus (scripted [Stimulus.quiet] base)).rst = false := by decide

/-- ResetCycleSetsEveryElement: a reset cycle in the middle of a transfer, with no access, a read and a write. -/
theorem witness_reset_cycle :
    let s := scripted [{ Stimulus.quiet with rst := true }] (busy .writing false 1 2)
    let r := scripted [{ Stimulus.quiet with rst := true, access := some 0x00010000#32 }] (busy .writing false 1 2)
    let w := scripted [{ Stimulus.quiet with rst := true, access := some 0x80000002#32 }] (busy .writing false 1 2)
    (s.io.stage = .sample ∧ (nextStimulus s).rst = true ∧ (nextStimulus s).access = none) ∧
    (r.io.stage = .sample ∧ (nextStimulus r).rst = true ∧ (nextStimulus r).access = some 0x00010000#32 ∧
      (0x00010000#32).getLsbD 31 = false ∧ (0x00010000#32).extractLsb' 16 4 = 1) ∧
    ((0x000C0000#32).extractLsb' 16 4 = 12 ∧ (0x000F0000#32).extractLsb' 16 4 ≠ 1 ∧
      (0x000F0000#32).extractLsb' 16 4 ≠ 12) ∧
    (w.io.stage = .sample ∧ (nextStimulus w).rst = true ∧ (nextStimulus w).access = some 0x80000002#32 ∧
      (0x80000002#32).getLsbD 31 = true) := by decide

/-- SameCycleCommandsFollowTheTimebase: T5 and T6. -/
theorem witness_same_cycle :
    let x : Stimulus := { Stimulus.quiet with tbEn := true, access := some 0x80000003#32 }
    let y : Stimulus := { Stimulus.quiet with tbEn := true, access := some 0x80000004#32 }
    let s := scripted [x] { base with timer := { base.timer with running := true, count := 255 } }
    let r := scripted [y] { base with timer := { base.timer with tdiv := 7 } }
    (s.io.stage = .sample ∧ s.io.script = x :: [] ∧ x.rst = false ∧ x.tbEn = true ∧ x.access = some 0x80000003#32 ∧
      s.timer.running = true ∧ s.timer.count.toNat = 2 ^ s.par.cw.val - 1) ∧
    (r.io.stage = .sample ∧ r.io.script = y :: [] ∧ y.rst = false ∧ y.tbEn = true ∧ y.access = some 0x80000004#32 ∧
      r.timer.tdiv = r.par.tickDiv - 1) := by decide

/-- PowerDownFreezesTheBusEngine: a powered-down cycle with an access and a pulse. -/
theorem witness_power_down :
    let x : Stimulus := { Stimulus.quiet with pd := true, tbEn := true, access := some 0x00010000#32 }
    let s := scripted [x] base
    s.io.stage = .sample ∧ s.io.script = x :: [] ∧ x.rst = false ∧ x.pd = true ∧ x.tbEn = true ∧
    (∀ w, x.access = some w → decodeAccess w ≠ .cmdSubmit) := by
  refine ⟨by decide, by decide, by decide, by decide, by decide, ?_⟩
  intro w h
  cases h
  decide

/-- ReservedAndReadOnlyRegisters: data that differ in the reserved bits only. -/
theorem witness_reserved_bits :
    (0x01B8#16).extractLsb' 0 8 = (0xFFB8#16).extractLsb' 0 8 ∧
    (0x01B8#16).toNat % 2 ^ base.par.lw.val = (0xFFB8#16).toNat % 2 ^ base.par.lw.val ∧
    (0x01B8#16).toNat % 2 ^ base.par.cw.val = (0xFFB8#16).toNat % 2 ^ base.par.cw.val ∧
    (0x01B8#16).toNat % 2 ^ base.par.aw.val = (0x01B8#16).toNat % 2 ^ base.par.aw.val ∧
    (0x0011#16).extractLsb' 0 4 = (0x0001#16).extractLsb' 0 4 := by decide

/-- AcceptedSubmitRegistersTheTransfer, SubmitProcedureRegistersTheTransfer: an idle bus. -/
theorem witness_submit_accepted :
    base.seq.pending = false ∧ base.line.ph = .idle ∧ base.line.busyDet = false ∧ base.io.sdaIn = true ∧
    base.io.sclIn = true := by decide

/-- RejectedSubmitOnlyClearsSubAcc: a transfer pending, and each way the bus is not idle. -/
theorem witness_submit_rejected :
    (busy .writing false 1 2).seq.pending = true ∧
    (let s := wires false true base
     ¬(s.line.ph = .idle ∧ s.line.busyDet = false ∧ s.io.sdaIn = true ∧ s.io.sclIn = true)) ∧
    (let s := wires true false base
     ¬(s.line.ph = .idle ∧ s.line.busyDet = false ∧ s.io.sdaIn = true ∧ s.io.sclIn = true)) ∧
    (let s := { base with line := { base.line with busyDet := true } }
     ¬(s.line.ph = .idle ∧ s.line.busyDet = false ∧ s.io.sdaIn = true ∧ s.io.sclIn = true)) ∧
    (let s := atEnd .q1 .tx 0 base
     ¬(s.line.ph = .idle ∧ s.line.busyDet = false ∧ s.io.sdaIn = true ∧ s.io.sclIn = true)) := by decide

/-- TimerCommandsWriteTheirElements, SecondStepCountsAndOverflows, SecondCounterFollowsItsLaw: running and stopped, and the
counts at the edge. -/
theorem witness_timer :
    ({ base.timer with running := true }).running = true ∧ base.timer.running = false ∧
    ({ base.timer with count := 255 }).count.toNat = 2 ^ base.par.cw.val - 1 ∧
    ({ base.timer with count := 254 }).count.toNat < 2 ^ base.par.cw.val - 1 ∧
    ({ base.timer with count := 255 }).count.toNat < 2 ^ base.par.cw.val := by decide

/-- PauseLosesNoCount: P3 with three pulses in the pause. -/
theorem witness_pause :
    let s := { base with timer := { base.timer with running := true, count := 101 } }
    ∃ t u v : State, exec .cmdTStop s = .next t ∧ execTimes 3 .tbStep t = .next u ∧ exec .cmdTStart u = .next v :=
  ⟨_, _, _, rfl, rfl, rfl⟩

/-- TickFallsEveryTickDivSteps. -/
theorem witness_tick : base.timer.tdiv = 0 ∧ 1 ≤ base.par.tickDiv := by decide

/-- ButtonSamplesFollowTheirBranch: at the threshold, below it, held, not held. -/
theorem witness_samples :
    (31 : Byte) + 1 = base.par.longAdd ∧ (30 : Byte) + 1 ≠ base.par.longAdd ∧ (63 : Byte) + 1 = base.par.longSet ∧
    (31 : Byte) + 1 ≠ base.par.longSet ∧ (⟨0, true, .none⟩ : PressCounter).longFired = true ∧
    (⟨3, false, .none⟩ : PressCounter).active ≠ 0 ∧ base.bSet.active = 0 ∧ base.bSet.longFired = false := by decide

/-- HoldFollowsItsLaw, for both buttons. -/
theorem witness_hold :
    2 ≤ (longTicks .add base).toNat ∧ (buttonOf .add base).active = 0 ∧ (buttonOf .add base).longFired = false ∧
    2 ≤ (longTicks .set base).toNat ∧ (buttonOf .set base).active = 0 ∧ (buttonOf .set base).longFired = false := by
  decide

/-- WriteNextSendsTheByteAtTheCursor, ReadByteStoresAndDecides: a slot left, the last slot, none left. -/
theorem witness_slots :
    (busy .writing false 1 2).seq.idx.toNat < (busy .writing false 1 2).seq.length.toNat ∧
    (busy .reading true 254 255).seq.idx.toNat < (busy .reading true 254 255).seq.length.toNat ∧
    ¬(busy .reading true 0 0).seq.idx.toNat < (busy .reading true 0 0).seq.length.toNat := by decide

/-- AcknowledgedWriteSendsTheBuffer: two bytes, and none. -/
theorem witness_write :
    (let s := busy .addressing false 0 2
     s.seq.bufValid = true ∧ s.seq.pending = true ∧ s.seq.state = .addressing ∧ s.seq.dir = false ∧ s.seq.idx = 0 ∧
       1 < s.seq.length.toNat) ∧
    (let s := busy .addressing false 0 0
     s.seq.bufValid = true ∧ s.seq.pending = true ∧ s.seq.state = .addressing ∧ s.seq.dir = false ∧ s.seq.idx = 0) := by
  decide

/-- ReadStoresTheReceivedBytes: B2's two bytes. -/
theorem witness_read :
    let s := busy .addressing true 0 2
    s.seq.bufValid = true ∧ s.seq.pending = true ∧ s.seq.state = .addressing ∧ s.seq.dir = true ∧ s.seq.idx = 0 ∧
    [(0x12 : Byte), 0xEF].length = s.seq.length.toNat ∧ 1 ≤ [(0x12 : Byte), 0xEF].length ∧
    [(0x12 : Byte), 0xEF].length ≤ 2 ^ s.par.aw.val := by decide

/-- ActionsAreTakenByPhase, LineStepTakesTheLatchedAction: each kind of phase, with an action in the latch and without. -/
theorem witness_actions :
    (withAction 2 (atEnd .hold .addr 8 base)).line.ph = .hold ∧ (withAction 1 base).line.ph = .idle ∧
    (atEnd .q1 .tx 0 base).line.ph ≠ .hold ∧ (atEnd .q1 .tx 0 base).line.ph ≠ .idle ∧
    (withAction 1 base).link.actValid = true ∧ base.link.actValid = false := by decide

/-- DetectorRunsInEveryLineStep: a start, a stop, and neither in each of the three ways. -/
theorem witness_detector :
    (base.line.sclQ = true ∧ (wires false true base).io.sclIn = true ∧ base.line.sdaQ = true ∧
      (wires false true base).io.sdaIn = false) ∧
    (let s := { base with line := { base.line with sdaQ := false } }
     s.line.sclQ = true ∧ s.io.sclIn = true ∧ s.line.sdaQ = false ∧ s.io.sdaIn = true) ∧
    ({ base.line with sclQ := false }).sclQ = false ∧ (wires true false base).io.sclIn = false ∧
    base.line.sdaQ = base.io.sdaIn := by decide

/-- BusErrorAbortsAndStretchingWaits: SDA changes in each watched phase, SCL is held in each waiting one. -/
theorem witness_bus_error :
    (∀ p ∈ [Phase.q3, .q4], let s := wires false true (atEnd p .rx 3 base)
      s.line.ph = p ∧ s.line.sclQ = true ∧ s.io.sclIn = true ∧ s.line.sdaQ ≠ s.io.sdaIn) ∧
    (∀ p ∈ [Phase.q3, .sp2], let s := wires true false (atEnd p .rx 3 base)
      s.line.ph = p ∧ s.io.sclIn = false) := by decide

/-- PhaseLastsQdivCycles: a phase that ends, a `P_SP3` that waits, phases that open with a change of SDA (a start condition
in `P_ST1`, a stop condition in `P_SP3`), and a `P_Q3` whose SDA changed while SCL was low. -/
theorem witness_phase :
    (let s := { base with line := { base.line with ph := .q3, unit := .tx } }
     s.line.ph ≠ .idle ∧ s.line.ph ≠ .hold ∧ s.line.qcnt = 0 ∧ 1 ≤ s.par.qdiv ∧ s.io.sclIn = true ∧
       s.line.sdaQ = s.io.sdaIn) ∧
    (let s := wires false true { base with line := { base.line with ph := .sp3, sdaQ := false } }
     s.line.ph = .sp3 ∧ s.line.qcnt = 0 ∧ 1 ≤ s.par.qdiv ∧ s.io.sdaIn = false ∧ s.line.sdaQ = s.io.sdaIn) ∧
    (let s := wires false true { base with line := { base.line with ph := .st1, sdaO := false } }
     s.line.ph = .st1 ∧ s.line.qcnt = 0 ∧ 1 ≤ s.par.qdiv ∧ startDet s = true) ∧
    (let s := { base with line := { base.line with ph := .sp3, sdaQ := false } }
     s.line.ph = .sp3 ∧ s.line.qcnt = 0 ∧ 1 ≤ s.par.qdiv ∧ stopDet s = true) ∧
    (let s := { base with line := { base.line with ph := .q3, unit := .rx, sdaQ := false, sclQ := false } }
     s.line.ph = .q3 ∧ s.line.qcnt = 0 ∧ 1 ≤ s.par.qdiv ∧ s.io.sclIn = true ∧ s.line.sclQ = false) := by decide

/-- StartConditionPhases, CellDrivesThenReleasesTheClock, StopConditionPhases: the end of every phase they name. -/
theorem witness_phase_ends :
    (∀ p ∈ [Phase.st0, .st1, .st2, .q1, .q2, .sp0, .sp1, .sp2, .sp3],
      (atEnd p .addr 0 base).line.qcnt = (atEnd p .addr 0 base).par.qdiv - 1 ∧ (atEnd p .addr 0 base).line.ph = p ∧
      (atEnd p .addr 0 base).io.sdaIn = true ∧ (atEnd p .addr 0 base).io.sclIn = true) ∧
    (wires false true (atEnd .st0 .addr 0 base)).io.sdaIn = false ∧
    (wires true false (atEnd .st0 .addr 0 base)).io.sclIn = false ∧
    (wires false true (atEnd .sp3 .addr 8 base)).io.sdaIn = false ∧
    (∀ u ∈ [CellUnit.addr, .tx, .rx, .ack, .nack], (atEnd .q1 u 7 base).line.unit = u) ∧
    (atEnd .q1 .tx 7 base).line.bitcnt.toNat < 8 ∧ (atEnd .q1 .tx 8 base).line.bitcnt.toNat = 8 := by decide

/-- ThirdQuarterSamplesOrLosesArbitration: each clause, at the last bit and the ninth cell. -/
theorem witness_third_quarter :
    (let s := wires false true { atEnd .q3 .addr 7 base with line := { (atEnd .q3 .addr 7 base).line with sdaQ := false } }
     s.line.qcnt = s.par.qdiv - 1 ∧ s.line.ph = .q3 ∧ s.io.sclIn = true ∧ s.line.sdaQ = s.io.sdaIn ∧
       s.line.bitcnt.toNat < 8 ∧ s.line.sdaO = true ∧ s.io.sdaIn = false) ∧
    (let s := wires false true { atEnd .q3 .nack 7 base with line := { (atEnd .q3 .nack 7 base).line with sdaQ := false } }
     s.line.qcnt = s.par.qdiv - 1 ∧ s.line.ph = .q3 ∧ s.io.sclIn = true ∧ s.line.sdaQ = s.io.sdaIn ∧
       s.line.unit = .nack ∧ s.io.sdaIn = false) ∧
    (∀ u ∈ [CellUnit.addr, .tx, .rx, .ack, .nack], ∀ n ∈ [(7 : BitVec 4), 8],
     let s := atEnd .q3 u n base
     s.line.qcnt = s.par.qdiv - 1 ∧ s.line.ph = .q3 ∧ s.io.sclIn = true ∧ s.line.sdaQ = s.io.sdaIn ∧
       s.line.unit = u ∧ s.line.bitcnt = n ∧ s.io.sdaIn = true) := by decide

/-- FourthQuarterEndsTheCell: every unit at the bit counts where the cells of a byte end and do not end. -/
theorem witness_fourth_quarter :
    ∀ u ∈ [CellUnit.addr, .tx, .rx, .ack, .nack], ∀ n ∈ [(6 : BitVec 4), 7, 8],
    let s := atEnd .q4 u n base
    s.line.qcnt = s.par.qdiv - 1 ∧ s.line.ph = .q4 ∧ s.line.sdaQ = s.io.sdaIn ∧ s.line.unit = u ∧
      s.line.bitcnt = n := by decide

/-- NothingTrapsAndReservedCodesAreDropped: the reserved action and event codes, and an event that fits no other arm. -/
theorem witness_reserved_codes :
    (∀ a ∈ [(0 : BitVec 3), 7], (withAction a base).link.actValid = true ∧ (withAction a base).link.actCode = a ∧
      (withAction a base).line.ph = .idle) ∧
    (∀ e ∈ [(0 : BitVec 4), 9, 15], (withEvent e (busy .writing false 1 2)).seq.bufValid = true ∧
      (withEvent e (busy .writing false 1 2)).link.evCode = e) ∧
    selectArm 5 (armContext (busy .writing false 1 2)) = .ignored 5 ∧ base.seq.bufValid = false := by decide

/-- SequencerElementsHaveTheirWriters: an operation that changes each group of elements. -/
theorem witness_sequencer_writers :
    exec .cmdSubmit base = .next (after .cmdSubmit base) ∧ (after .cmdSubmit base).seq.subAcc ≠ base.seq.subAcc ∧
    (after .cmdSubmit base).seq.pending ≠ base.seq.pending ∧
    (after .hNackEvAddrNack base).seq.finalOutcome ≠ base.seq.finalOutcome ∧
    (after (.wrTreq 1) base).seq.treq ≠ base.seq.treq ∧ (after (.wrTptr 1) base).seq.tptr ≠ base.seq.tptr ∧
    (after (.wrTlen 1) base).seq.tlen ≠ base.seq.tlen :=
  ⟨rfl, by decide⟩

/-- OtherElementsHaveTheirWriters, OnlyTheByteAtTheCursorIsStored: an operation that changes each element. -/
theorem witness_other_writers :
    let r := { busy .reading true 0 1 with buffer := [(0x100, 0x77)], link := { base.link with dreg := 0x12 } }
    let u := { base with timer := { base.timer with running := true, count := 255, tdiv := 7 } }
    exec .hReadByte r = .next (after .hReadByte r) ∧ (after .hReadByte r).buffer ≠ r.buffer ∧
    memRead 0x100 (after .hReadByte r).buffer ≠ memRead 0x100 r.buffer ∧ (after .hReadByte r).link ≠ r.link ∧
    (after .lineStep (wires false true (atEnd .st0 .addr 0 base))).link.evCode ≠ base.link.evCode ∧
    (after .aStartAddr base).line ≠ base.line ∧
    (after .tbStep u).timer.count ≠ u.timer.count ∧ (after .tbStep u).timer.tdiv ≠ u.timer.tdiv ∧
    (after .tbStep u).timer.tickPending ≠ u.timer.tickPending ∧
    (after .tbStep u).timer.secPending ≠ u.timer.secPending ∧ (after .cmdTStop u).timer.tcount ≠ u.timer.tcount ∧
    (after .cmdTStop u).timer.running ≠ u.timer.running ∧ (after .tick base).bAdd ≠ base.bAdd ∧
    (after .tick base).bSet ≠ base.bSet :=
  ⟨rfl, by decide⟩

/-- `n` steps of the machine. -/
def steps : Nat → State → State
  | 0, s => s
  | n + 1, s =>
    match step s with
    | .next t => steps n t
    | .fault _ => s
    | .refused _ => s

theorem reachable_steps (n : Nat) {s : State} (h : Reachable s) : Reachable (steps n s) := by
  induction n generalizing s with
  | zero => exact h
  | succ n ih =>
    simp only [steps]
    split
    · rename_i t k; exact ih (.step s t h k)
    · exact h
    · exact h

/-- The block at reset with `QDIV` = 1 and four cycles laid down: a `SUBMIT`, one to take the action, one in which SDA is
held low at the end of `P_ST0` (L5), and the handler's. -/
def fourCycles : State :=
  scripted [{ Stimulus.quiet with access := some 0x80000001#32 }, Stimulus.quiet, { Stimulus.quiet with extSda := false },
    { Stimulus.quiet with extSda := false, handlerGo := true }, Stimulus.quiet]
    { base with par := { par2 with qdiv := 1 } }

/-- The program after these cycles. -/
def programAfter (envs : List Stimulus) (p : HostProgram) (s : State) : HostProgram :=
  match runProgram envs p s with
  | .next (q, _) => q
  | .fault _ => p
  | .refused _ => p

/-- R76's `POLL`, on the transfer of L5 that loses arbitration: three reads of STATUS (R63), the last one with bit 0 at 0
and the outcome 2; `STOP` comes next. -/
theorem test_poll :
    let p := programAfter [Stimulus.quiet, Stimulus.quiet, { Stimulus.quiet with extSda := false },
        { Stimulus.quiet with extSda := false, handlerGo := true }]
      (.start [.cmd 1, .poll, .stop]) { base with par := { par2 with qdiv := 1 } }
    p.answers = [0x012D, 0x1B2D, 0x1814] ∧ p.outcome = some 2 ∧
      p.todo = [.access 0x80000003, .access 0x00060000] := by decide

theorem reachable_fourCycles (n : Nat) : Reachable (steps n fourCycles) :=
  reachable_steps n (.start _ ⟨rfl, rfl, rfl, rfl, rfl, rfl, rfl⟩)

/-- StepKeepsConsistent, StepKeepsLinesFollowPhase, StepKeepsCountersInRange, StepKeepsBufferCanonical: the states of a
transfer meet the invariants. -/
theorem witness_invariants :
    LinesFollowPhase (steps 13 fourCycles) ∧ CountersInRange (steps 13 fourCycles) ∧
    (steps 13 fourCycles).par.legal = true ∧ Memory.wf (steps 13 fourCycles).buffer = true ∧
    step (steps 13 fourCycles) = .next (steps 14 fourCycles) := by
  refine ⟨⟨by decide, by decide⟩, ?_, by decide, by decide, rfl⟩
  refine ⟨by decide, by decide, by decide, by decide, by decide, ?_⟩
  exact ⟨by decide, by decide, by decide, by decide, by decide, by decide, by decide⟩

/-- StepKeepsConsistent, CursorOnlyMovesUp: a state with an event pending, and one with an action latched. -/
theorem witness_consistent : Consistent (steps 13 fourCycles) ∧ Consistent (steps 5 fourCycles) := by
  constructor
  · refine ⟨by decide, by decide, by decide, by decide, by decide, fun h => absurd h (by decide), fun _ => ?_, ?_⟩
    · exact .inl ⟨by decide, by decide, .inl ⟨.inl (by decide), by decide⟩⟩
    · exact fun h => absurd h (by decide)
  · refine ⟨by decide, by decide, by decide, by decide, by decide, fun h => absurd h (by decide), fun _ => ?_, ?_⟩
    · exact .inr (.inl ⟨by decide, by decide, .inl ⟨by decide, by decide, by decide⟩⟩)
    · exact fun h => absurd h (by decide)

/-- ReachableStatesMeetTheLatchInvariants: reachable states with an action latched (after `SUBMIT`), and with an event
pending. -/
theorem witness_reachable :
    Reachable (steps 5 fourCycles) ∧ (steps 5 fourCycles).link.actValid = true ∧
    Reachable (steps 13 fourCycles) ∧ (steps 13 fourCycles).link.evPending = true :=
  ⟨reachable_fourCycles 5, by decide, reachable_fourCycles 13, by decide⟩

/-- NoOpArmsAreUnreachable: a reachable state whose next step is the handler step. -/
theorem witness_handler_step :
    Reachable (steps 18 fourCycles) ∧ (steps 18 fourCycles).io.stage = .handler ∧
    currentInstr (steps 18 fourCycles) = some .handler :=
  ⟨reachable_fourCycles 18, by decide, by decide⟩

/-- CursorOnlyMovesUp: the step that accepts a `SUBMIT`, from a consistent state (`witness_consistent` has two more). -/
theorem witness_cursor :
    Consistent (steps 4 fourCycles) ∧ step (steps 4 fourCycles) = .next (steps 5 fourCycles) ∧
    (steps 4 fourCycles).seq.pending = false ∧ (steps 5 fourCycles).seq.pending = true := by
  refine ⟨?_, rfl, by decide, by decide⟩
  refine ⟨by decide, by decide, by decide, by decide, by decide, fun _ => by decide, fun h => absurd h (by decide), ?_⟩
  exact fun h => absurd h (by decide)

/-- CountdownFinishesOnTheLastSecond: S5's three seconds, and one. -/
theorem witness_countdown :
    ({ App.boot with remaining := 3, phase := .running }).phase = .running ∧
    1 ≤ ({ App.boot with remaining := 3, phase := .running }).remaining ∧
    1 ≤ ({ App.boot with remaining := 1, phase := .running }).remaining := by decide

/-- PowerDownNeverStarvesATransfer: a host in power-down, and one about to submit. -/
theorem witness_coordinator :
    (let h : HostSide := { HostSide.boot with mode := .asleep .powerDown }
     let s := scripted [h.inputs Stimulus.quiet] base
     s.io.stage = .sample ∧ s.io.script = h.inputs Stimulus.quiet :: [] ∧ Stimulus.quiet.rst = false ∧ h.pd = true ∧
       s.seq.pending = false) ∧
    (let h : HostSide := { HostSide.boot with mode := .handling, tasks := [.access 0x80000001] }
     let s := scripted [h.inputs Stimulus.quiet] base
     s.io.stage = .sample ∧ s.io.script = h.inputs Stimulus.quiet :: [] ∧ h.mode ≠ .asleep .powerDown) := by decide

/-- SubmitProcedureRegistersTheTransfer: operands of the widths; bytes to store. -/
theorem witness_submit_operands :
    (0x0100 : BufAddr).toNat < 2 ^ base.par.aw.val ∧ (5 : BufLen).toNat < 2 ^ base.par.lw.val ∧
    [(0x12 : Byte), 0xEF].length ≤ 65536 := by decide

end Sys2Proof.Tests
end

/-! Proofs of the family 00_scope: which operation a stage of R6 runs, what a whole cycle is, and the ranges of the
counters. -/

namespace Sys2Proof.Machine

-- Stages (R6) ------------------------------------------------------------------------------------------------------

theorem step_sample {s : State} (hs : s.io.stage = .sample) : step s = .next (sampleInputs s) := by
  simp [step, hs]

/-- A stage whose agent makes no step passes. -/
theorem step_pass {s : State} (hs : s.io.stage ≠ .sample) (hi : currentInstr s = none) :
    step s = .next (advance s) := by
  unfold step
  rw [hi]
  split <;> [contradiction; rfl; rfl; rfl; rfl]

/-- A stage whose agent steps runs that agent's operation. -/
theorem step_run {s : State} {i : Instr} (hs : s.io.stage ≠ .sample) (hi : currentInstr s = some i) :
    step s = onNext advance (exec i s) := by
  unfold step
  rw [hi]
  split <;> [contradiction; rfl; rfl; rfl; rfl]

theorem step_timebase {s : State} (hs : s.io.stage = .timebase) :
    step s = if s.io.cur.tbEn then onNext advance (exec .tbStep s) else .next (advance s) := by
  have hne : s.io.stage ≠ .sample := by simp [hs]
  split
  next ht => exact step_run hne (by simp [currentInstr, hs, ht])
  next ht => exact step_pass hne (by simp [currentInstr, hs, ht])

theorem step_line {s : State} (hs : s.io.stage = .line) :
    step s = if s.io.cur.pd then .next (advance s) else onNext advance (exec .lineStep s) := by
  have hne : s.io.stage ≠ .sample := by simp [hs]
  split
  next hp => exact step_pass hne (by simp [currentInstr, hs, hp])
  next hp => exact step_run hne (by simp [currentInstr, hs, hp])

theorem step_handler {s : State} (hs : s.io.stage = .handler) :
    step s = if handlerEnabled s then onNext advance (exec .handler s) else .next (advance s) := by
  have hne : s.io.stage ≠ .sample := by simp [hs]
  split
  next he => exact step_run hne (by simp [currentInstr, hs, he])
  next he => exact step_pass hne (by simp [currentInstr, hs, he])

theorem step_host_access {s : State} {w : AccessWord} (hs : s.io.stage = .host) (hw : s.io.cur.access = some w) :
    step s = onNext advance (exec (decodeAccess w) s) :=
  step_run (by simp [hs]) (by simp [currentInstr, hs, hw])

theorem step_host_quiet {s : State} (hs : s.io.stage = .host) (hw : s.io.cur.access = none) :
    step s = .next (advance s) :=
  step_pass (by simp [hs]) (by simp [currentInstr, hs, hw])

theorem handlerEnabled_iff (s : State) :
    handlerEnabled s = true ↔ s.io.cur.pd = false ∧ s.io.evAtStart = true ∧ s.io.cur.handlerGo = true := by
  simp [handlerEnabled, and_assoc]

-- Accesses (R60 to R62) --------------------------------------------------------------------------------------------

theorem decodeRead_wellFormed (i : BitVec 4) : (decodeRead i).wellFormed = true := by
  unfold decodeRead
  split <;> rfl

/-- The decoder hands a reserved command row only opcodes of its range (R62). -/
theorem decodeCommand_wellFormed (op : BitVec 4) : (decodeCommand op).wellFormed = true := by
  unfold decodeCommand
  split
  case h_7 h => simp [Instr.wellFormed, h]
  case h_8 h => simp [Instr.wellFormed, h]
  case h_9 =>
    have : 8 ≤ op.toNat := by grind
    exact decide_eq_true this
  all_goals rfl

theorem decodeWrite_wellFormed (i : BitVec 4) (d : Reg) : (decodeWrite i d).wellFormed = true := by
  unfold decodeWrite
  split
  case h_1 => exact decodeCommand_wellFormed _
  all_goals rfl

theorem decodeAccess_wellFormed (w : AccessWord) : (decodeAccess w).wellFormed = true := by
  unfold decodeAccess
  split
  · exact decodeWrite_wellFormed _ _
  · exact decodeRead_wellFormed _

/-- What the access `i` of the host does to `s`: as `HostEffect`, but `SUBMIT` is named, and an element with a width is
written with one of the state's own values or with data cut to that width (R64, R65). -/
inductive AccessEffect (s : State) (i : Instr) : State → Prop
  /-- A read, or a write that changes nothing. -/
  | port (r : Option Reg) : AccessEffect s i { s with io := { s.io with rdData := r } }
  /-- `SUBMIT`, accepted or not (R81, R201). -/
  | submit (hi : i = .cmdSubmit) :
      AccessEffect s i (if submitAccepted s then acceptTransfer s else { s with seq := { s.seq with subAcc := false } })
  /-- A write of TREQ. -/
  | treq (a : Byte) : AccessEffect s i { s with seq := { s.seq with treq := a } }
  /-- A write of TPTR. -/
  | tptr (d : Reg) : AccessEffect s i { s with seq := { s.seq with tptr := toAddress s d } }
  /-- A write of TLEN. -/
  | tlen (d : Reg) : AccessEffect s i { s with seq := { s.seq with tlen := toLength s d } }
  /-- A write of TCOUNT. -/
  | tcount (d : Reg) : AccessEffect s i { s with timer := { s.timer with tcount := toCount s d } }
  /-- `T_START`. -/
  | start : AccessEffect s i { s with timer := { s.timer with count := s.timer.tcount, running := true } }
  /-- `T_STOP`. -/
  | stop : AccessEffect s i { s with timer := { s.timer with running := false, tcount := s.timer.count } }
  /-- `ACK_TICK` or `ACK_SEC`. -/
  | ack (tp sp : Bool) : AccessEffect s i { s with timer := { s.timer with tickPending := tp, secPending := sp } }

/-- A write the block ignores, or a command without effect. -/
theorem AccessEffect.same (s : State) (i : Instr) : AccessEffect s i s := .port s.io.rdData

theorem decodeRead_accessEffect (i : BitVec 4) (s : State) :
    ∃ u, exec (decodeRead i) s = .next u ∧ AccessEffect s (decodeRead i) u := by
  unfold decodeRead
  split <;> exact ⟨_, rfl, .port _⟩

theorem decodeCommand_accessEffect (op : BitVec 4) (s : State) :
    ∃ u, exec (decodeCommand op) s = .next u ∧ AccessEffect s (decodeCommand op) u := by
  unfold decodeCommand
  split
  case h_2 => exact ⟨_, rfl, .submit rfl⟩
  case h_3 => exact ⟨_, rfl, .start⟩
  case h_4 => exact ⟨_, rfl, .stop⟩
  case h_5 => exact ⟨_, rfl, .ack false s.timer.secPending⟩
  case h_6 => exact ⟨_, rfl, .ack s.timer.tickPending false⟩
  all_goals exact ⟨_, rfl, .same s _⟩

theorem decodeWrite_accessEffect (i : BitVec 4) (d : Reg) (s : State) :
    ∃ u, exec (decodeWrite i d) s = .next u ∧ AccessEffect s (decodeWrite i d) u := by
  unfold decodeWrite
  split
  case h_1 => exact decodeCommand_accessEffect _ s
  case h_3 => exact ⟨_, rfl, .treq _⟩
  case h_4 => exact ⟨_, rfl, .tptr _⟩
  case h_5 => exact ⟨_, rfl, .tlen _⟩
  case h_7 => exact ⟨_, rfl, .tcount _⟩
  all_goals exact ⟨_, rfl, .same s _⟩

/-- Every access word answers a next state, and it is one of these. -/
theorem decodeAccess_accessEffect (w : AccessWord) (s : State) :
    ∃ u, exec (decodeAccess w) s = .next u ∧ AccessEffect s (decodeAccess w) u := by
  unfold decodeAccess
  split
  · exact decodeWrite_accessEffect _ _ s
  · exact decodeRead_accessEffect _ s

/-- The word of `T_STOP` (R62) runs it (R144). -/
theorem exec_tStopWord (s : State) : exec (decodeAccess 0x80000003#32) s =
    .next { s with timer := { s.timer with running := false, tcount := s.timer.count } } := by
  rw [show decodeAccess 0x80000003#32 = .cmdTStop by decide]
  rfl

/-- The word of `ACK_TICK` (R62) runs it (R146). -/
theorem exec_ackTickWord (s : State) : exec (decodeAccess 0x80000004#32) s =
    .next { s with timer := { s.timer with tickPending := false } } := by
  rw [show decodeAccess 0x80000004#32 = .cmdAckTick by decide]
  rfl

theorem AccessEffect.par {s u : State} {i : Instr} (h : AccessEffect s i u) : u.par = s.par := by
  cases h
  case submit => split <;> rfl
  all_goals rfl

/-- What an access other than `SUBMIT` leaves alone of the transfer in flight and the cycle (R54, R222). -/
structure AccessFrame (s u : State) : Prop where
  line : u.line = s.line
  link : u.link = s.link
  state : u.seq.state = s.seq.state
  pending : u.seq.pending = s.seq.pending
  idx : u.seq.idx = s.seq.idx
  tdiv : u.timer.tdiv = s.timer.tdiv
  stage : u.io.stage = s.io.stage

theorem AccessFrame.refl (s : State) : AccessFrame s s := ⟨rfl, rfl, rfl, rfl, rfl, rfl, rfl⟩

theorem AccessEffect.frame {s u : State} {i : Instr} (h : AccessEffect s i u) (hi : i ≠ .cmdSubmit) :
    AccessFrame s u := by
  cases h
  case submit hs => exact absurd hs hi
  all_goals exact ⟨rfl, rfl, rfl, rfl, rfl, rfl, rfl⟩

-- The timebase step, unit by unit (R140 to R142) -------------------------------------------------------------------

/-- The timer after the divider step. -/
theorem tickDivide_timer (s : State) :
    (tickDivide s).timer =
      if s.timer.tdiv = s.par.tickDiv - 1 then { s.timer with tdiv := 0, tickPending := true }
      else { s.timer with tdiv := s.timer.tdiv + 1 } := by
  unfold tickDivide
  split
  · rw [tickOp_eq]
  · rfl

theorem tickDivide_par (s : State) : (tickDivide s).par = s.par := by
  obtain ⟨tm, a, b, h⟩ := tickDivide_frame s
  rw [h]

/-- The divider neither counts nor stops the second counter. -/
theorem tickDivide_counter (s : State) :
    (tickDivide s).timer.count = s.timer.count ∧ (tickDivide s).timer.running = s.timer.running ∧
      (tickDivide s).timer.tcount = s.timer.tcount := by
  rw [tickDivide_timer]
  split <;> exact ⟨rfl, rfl, rfl⟩

theorem tickDivide_tdiv (s : State) :
    (tickDivide s).timer.tdiv = if s.timer.tdiv = s.par.tickDiv - 1 then 0 else s.timer.tdiv + 1 := by
  rw [tickDivide_timer]
  split <;> rfl

/-- A second counter step writes only the counter and its request (R142). -/
theorem secStepOp_frame (s : State) :
    ∃ c p, secStepOp s = { s with timer := { s.timer with count := c, secPending := p } } := by
  rcases secStepOp_cases s with ⟨-, h⟩ | ⟨-, -, h⟩ | ⟨-, -, h⟩ <;> exact ⟨_, _, h⟩

theorem tbStepOp_tdiv (s : State) :
    (tbStepOp s).timer.tdiv = if s.timer.tdiv = s.par.tickDiv - 1 then 0 else s.timer.tdiv + 1 := by
  obtain ⟨c, p, h⟩ := secStepOp_frame (tickDivide s)
  rw [tbStepOp, h, ← tickDivide_tdiv]

/-- A running counter at its top overflows in the timebase step (R142). -/
theorem tbStepOp_overflow {s : State} (hr : s.timer.running = true)
    (hc : s.timer.count.toNat = 2 ^ s.par.cw.val - 1) :
    (tbStepOp s).timer.count = 0 ∧ (tbStepOp s).timer.secPending = true := by
  obtain ⟨ec, er, -⟩ := tickDivide_counter s
  rw [tbStepOp]
  rcases secStepOp_cases (tickDivide s) with ⟨h, -⟩ | ⟨-, -, h⟩ | ⟨-, h, -⟩
  · simp [er, hr] at h
  · rw [h]; exact ⟨rfl, rfl⟩
  · rw [ec, tickDivide_par] at h; exact absurd hc h

/-- The press counters after a timebase step are those after its divider step, which samples both buttons or neither
(R141, R160). -/
theorem tbStepOp_buttons (s : State) :
    ((tbStepOp s).bAdd = s.bAdd ∨ (tbStepOp s).bAdd = pressSample s.par.longAdd s.bAdd ∨
      (tbStepOp s).bAdd = releaseSample s.bAdd) ∧
    ((tbStepOp s).bSet = s.bSet ∨ (tbStepOp s).bSet = pressSample s.par.longSet s.bSet ∨
      (tbStepOp s).bSet = releaseSample s.bSet) := by
  obtain ⟨c, p, h⟩ := secStepOp_frame (tickDivide s)
  rw [tbStepOp, h]
  unfold tickDivide
  split
  · rw [tickOp_eq]
    constructor <;> dsimp only <;> split <;> simp
  · exact ⟨.inl rfl, .inl rfl⟩

-- A whole cycle without reset (R6) ---------------------------------------------------------------------------------

/-- What stage (2) makes of a state. -/
def timebaseStage (s : State) : State := advance (if s.io.cur.tbEn then tbStepOp s else s)

theorem timebaseStage_busEngine (s : State) :
    (timebaseStage s).seq = s.seq ∧ (timebaseStage s).link = s.link ∧ (timebaseStage s).line = s.line := by
  obtain ⟨tm, a, b, h⟩ := tbStepOp_frame s
  unfold timebaseStage
  split
  · rw [h]; exact ⟨rfl, rfl, rfl⟩
  · exact ⟨rfl, rfl, rfl⟩

/-- What stage (3) makes of a state. -/
def lineStage (s : State) : State := advance (if s.io.cur.pd then s else lineStepOp s)

/-- What stage (4) makes of a state. -/
def handlerStage (s : State) : State :=
  advance (if handlerEnabled s then runArm (selectArm s.link.evCode (armContext s)) s else s)

/-- The state a cycle with the inputs `x` brings to its host stage. -/
def beforeHost (x : Stimulus) (s : State) : State := handlerStage (lineStage (timebaseStage (sampleAs x s)))

theorem step_eq_timebaseStage {s : State} (hs : s.io.stage = .timebase) : step s = .next (timebaseStage s) := by
  rw [step_timebase hs, timebaseStage]
  split <;> rfl

theorem step_eq_lineStage {s : State} (hs : s.io.stage = .line) : step s = .next (lineStage s) := by
  rw [step_line hs, lineStage]
  split <;> rfl

theorem step_eq_handlerStage {s : State} (hs : s.io.stage = .handler) : step s = .next (handlerStage s) := by
  rw [step_handler hs, handlerStage]
  split <;> rfl

theorem timebaseStage_io (s : State) : (timebaseStage s).io = { s.io with stage := Stage.after s.io.stage } := by
  obtain ⟨tm, a, b, h⟩ := tbStepOp_frame s
  unfold timebaseStage
  split
  · rw [h]; rfl
  · rfl

theorem lineStage_io (s : State) : (lineStage s).io = { s.io with stage := Stage.after s.io.stage } := by
  unfold lineStage
  split
  · rfl
  · rw [advance, (lineStepOp_lineFrame s).io]

theorem handlerStage_io (s : State) : (handlerStage s).io = { s.io with stage := Stage.after s.io.stage } := by
  unfold handlerStage
  split
  · rw [advance, (runArm_frame _ s).io]
  · rfl

theorem lineStage_timer (s : State) : (lineStage s).timer = s.timer := by
  unfold lineStage
  split
  · rfl
  · exact (lineStepOp_lineFrame s).timer

theorem handlerStage_timer (s : State) : (handlerStage s).timer = s.timer := by
  unfold handlerStage
  split
  · exact (runArm_frame _ s).timer
  · rfl

/-- The four stages before the host's write nothing of the inputs the sampling noted. -/
theorem beforeHost_io (x : Stimulus) (s : State) :
    (beforeHost x s).io = { (sampleAs x s).io with stage := .host } := by
  rw [beforeHost, handlerStage_io, lineStage_io, timebaseStage_io]
  rfl

/-- Before the host stage the timer has made exactly the timebase step of the cycle. -/
theorem beforeHost_timer (x : Stimulus) (s : State) :
    (beforeHost x s).timer = if x.tbEn then (tbStepOp (sampleAs x s)).timer else s.timer := by
  rw [beforeHost, handlerStage_timer, lineStage_timer, timebaseStage, advance_timer]
  exact apply_ite State.timer _ _ _

/-- With `pd = 1` line engine and handler make no step (R222). -/
theorem beforeHost_powerDown {x : Stimulus} (hp : x.pd = true) (s : State) :
    beforeHost x s = advance (advance (timebaseStage (sampleAs x s))) := by
  have hl : lineStage (timebaseStage (sampleAs x s)) = advance (timebaseStage (sampleAs x s)) := by
    rw [lineStage, timebaseStage_io]
    exact congrArg advance (if_pos hp)
  rw [beforeHost, hl, handlerStage]
  refine congrArg advance (if_neg ?_)
  rw [handlerEnabled_iff, advance, timebaseStage_io]
  exact fun h => absurd (hp.symm.trans h.1) (by decide)

/-- A powered-down cycle reaches its host stage with sequencer, latches and line engine as they were. -/
theorem beforeHost_powerDown_busEngine {x : Stimulus} (hp : x.pd = true) (s : State) :
    (beforeHost x s).seq = s.seq ∧ (beforeHost x s).link = s.link ∧ (beforeHost x s).line = s.line := by
  rw [beforeHost_powerDown hp]
  exact timebaseStage_busEngine (sampleAs x s)

/-- A run of `n + 1` steps is a step and a run of `n` steps. -/
theorem core_run_next {s t : State} (n : Nat) (h : step s = .next t) :
    Host.Core.run core (n + 1) s = Host.Core.run core n t := by
  have h' : core.step s = .next t := h
  simp only [Host.Core.run, h']

/-- A cycle of five steps without reset: four steps lead to `beforeHost`, the fifth is its host stage. -/
theorem run_cycle {s t : State} {x : Stimulus} {rest : List Stimulus} (hs : s.io.stage = .sample)
    (hx : s.io.script = x :: rest) (hr : x.rst = false) (ht : step (beforeHost x s) = .next t) :
    Host.Core.run core 5 s = .next t := by
  have hn : nextStimulus s = x := by simp [nextStimulus, hx]
  have h1 : step s = .next (sampleAs x s) := by
    rw [step_sample hs, sampleInputs_run (by rw [hn]; exact hr), hn]
  have i2 : (timebaseStage (sampleAs x s)).io.stage = .line := by rw [timebaseStage_io]; rfl
  have i3 : (lineStage (timebaseStage (sampleAs x s))).io.stage = .handler := by rw [lineStage_io, i2]; rfl
  calc Host.Core.run core 5 s
      = Host.Core.run core 4 (sampleAs x s) := core_run_next 4 h1
    _ = Host.Core.run core 3 (timebaseStage (sampleAs x s)) := core_run_next 3 (step_eq_timebaseStage rfl)
    _ = Host.Core.run core 2 (lineStage (timebaseStage (sampleAs x s))) := core_run_next 2 (step_eq_lineStage i2)
    _ = Host.Core.run core 1 (beforeHost x s) := core_run_next 1 (step_eq_handlerStage i3)
    _ = Host.Core.run core 0 t := core_run_next 0 ht
    _ = .next t := rfl

/-- A cycle of five steps without reset whose host stage has an access. -/
theorem run_cycle_access {s u : State} {x : Stimulus} {rest : List Stimulus} {w : AccessWord}
    (hs : s.io.stage = .sample) (hx : s.io.script = x :: rest) (hr : x.rst = false) (hw : x.access = some w)
    (hu : exec (decodeAccess w) (beforeHost x s) = .next u) : Host.Core.run core 5 s = .next (advance u) := by
  refine run_cycle hs hx hr ?_
  rw [step_host_access (w := w) (by rw [beforeHost_io]) (by rw [beforeHost_io]; exact hw), hu, onNext]

/-- A cycle of five steps without reset whose host stage has no access. -/
theorem run_cycle_quiet {s : State} {x : Stimulus} {rest : List Stimulus} (hs : s.io.stage = .sample)
    (hx : s.io.script = x :: rest) (hr : x.rst = false) (hw : x.access = none) :
    Host.Core.run core 5 s = .next (advance (beforeHost x s)) := by
  refine run_cycle hs hx hr (step_host_quiet ?_ ?_) <;> rw [beforeHost_io]
  exact hw

/-- The stage after a cycle without reset, whatever the host stage leaves of the rest. -/
theorem after_beforeHost_stage (x : Stimulus) (s : State) : Stage.after (beforeHost x s).io.stage = .sample := by
  rw [beforeHost_io]
  rfl

/-- Where a cycle without reset leaves the inputs still to come. -/
theorem beforeHost_script {s : State} {x : Stimulus} {rest : List Stimulus} (hx : s.io.script = x :: rest) :
    (beforeHost x s).io.script = rest := by
  rw [beforeHost_io, sampleAs, hx, List.tail_cons]

-- Ranges of the counters, unit by unit (R11, R15, R17, R21, R22, R24, R27) -----------------------------------------

/-- The line engine's counters are in their ranges (R17). -/
structure LineInRange (p : Params) (l : LineEngine) : Prop where
  qcnt : l.qcnt < p.qdiv
  bitcnt : l.bitcnt ≤ 8

/-- The timer's counters are in their ranges (R21, R22, R24). -/
structure TimerInRange (p : Params) (t : Timer) : Prop where
  tdiv : t.tdiv < p.tickDiv
  count : t.count.toNat < 2 ^ p.cw.val
  tcount : t.tcount.toNat < 2 ^ p.cw.val

/-- The sequencer's addresses and lengths are in their widths (R11, R15). -/
structure SeqInRange (p : Params) (q : Sequencer) : Prop where
  bufStart : q.bufStart.toNat < 2 ^ p.aw.val
  tptr : q.tptr.toNat < 2 ^ p.aw.val
  length : q.length.toNat < 2 ^ p.lw.val
  idx : q.idx.toNat < 2 ^ p.lw.val
  tlen : q.tlen.toNat < 2 ^ p.lw.val

/-- `CountersInRange` taken apart by unit; the bounds are those of parameters `p`. -/
structure UnitsInRange (p : Params) (s : State) : Prop where
  line : LineInRange p s.line
  timer : TimerInRange p s.timer
  bAdd : s.bAdd.active < p.longAdd
  bSet : s.bSet.active < p.longSet
  seq : SeqInRange p s.seq

theorem countersInRange_iff (s : State) : CountersInRange s ↔ UnitsInRange s.par s := by
  constructor
  · rintro ⟨hq, hb, ht, ha, hs, hw⟩
    exact ⟨⟨hq, hb⟩, ⟨ht, hw.count, hw.tcount⟩, ha, hs, ⟨hw.bufStart, hw.tptr, hw.length, hw.idx, hw.tlen⟩⟩
  · rintro ⟨⟨hq, hb⟩, ⟨ht, hc, htc⟩, ha, hs, ⟨h1, h2, h3, h4, h5⟩⟩
    exact ⟨hq, hb, ht, ha, hs, ⟨hc, htc, h1, h2, h3, h4, h5⟩⟩

/-- The ranges R3 gives the counters' bounds; a threshold is at least 2, so 0 lies below it. -/
structure PositiveBounds (p : Params) : Prop where
  qdiv : 0 < p.qdiv
  tickDiv : 0 < p.tickDiv
  longAdd : 0 < p.longAdd
  longSet : 0 < p.longSet

theorem PositiveBounds.of_legal {p : Params} (h : p.legal = true) : PositiveBounds p := by
  simp only [Params.legal, Bool.and_eq_true, decide_eq_true_eq] at h
  obtain ⟨⟨⟨⟨⟨⟨hq, ht⟩, ha⟩, hs⟩, -⟩, -⟩, -⟩ := h
  exact ⟨hq, ht, by bv_omega, by bv_omega⟩

section UnitRanges

-- Line engine

variable {p : Params} {s : State}

/-- `bitcnt` counts on only while it is below its top (R122). -/
theorem endCell_lineInRange (hq : 0 < p.qdiv) (h : LineInRange p s.line) : LineInRange p (endCell s).line := by
  have next (hb : s.line.bitcnt < 8) : LineInRange p (nextCell s).line :=
    ⟨hq, show s.line.bitcnt + 1 ≤ 8 by bv_omega⟩
  unfold endCell
  split
  · split
    next hb => exact next hb
    next => exact ⟨hq, h.bitcnt⟩
  · split
    next hb => exact next hb
    next => exact ⟨hq, h.bitcnt⟩
  · split
    next hb => exact next (by bv_omega)
    next => exact ⟨hq, h.bitcnt⟩
  · exact ⟨hq, by simp⟩
  · exact ⟨hq, h.bitcnt⟩

/-- The end of a phase starts the phase count again, or (`P_SP3` waiting for SDA) leaves it (R116 to R126). -/
theorem phaseEnd_lineInRange (hq : 0 < p.qdiv) (h : LineInRange p s.line) : LineInRange p (phaseEnd s).line := by
  have restarted : ∀ {l : LineEngine}, l.qcnt = 0 → l.bitcnt = s.line.bitcnt → LineInRange p l :=
    fun hz hb => ⟨hz ▸ hq, hb ▸ h.bitcnt⟩
  unfold phaseEnd
  split
  case h_1 => unfold endSt0; split <;> exact restarted rfl rfl
  case h_3 => exact ⟨hq, by simp [endSt2]⟩
  case h_6 =>
    unfold endQ3 sampleCell
    repeat' split
    all_goals exact restarted rfl rfl
  case h_7 => exact endCell_lineInRange hq (s := driveScl false s) ⟨h.qcnt, h.bitcnt⟩
  case h_11 =>
    unfold endSp3
    split
    · exact restarted rfl rfl
    · exact h
  case h_12 => exact h
  case h_13 => exact h
  all_goals exact restarted rfl rfl

theorem countPhase_lineInRange (hq : 0 < s.par.qdiv) (h : LineInRange s.par s.line) (bad : Bool) :
    LineInRange s.par (countPhase bad s).line := by
  rcases countPhase_cases bad s with ⟨-, -, e⟩ | ⟨-, ⟨-, -, e⟩ | ⟨-, hc, e⟩ | ⟨-, -, e⟩⟩ <;> rw [e]
  · exact ⟨hq, h.bitcnt⟩
  · exact ⟨hq, h.bitcnt⟩
  · have := h.qcnt
    exact ⟨show s.line.qcnt + 1 < s.par.qdiv by omega, h.bitcnt⟩
  · exact phaseEnd_lineInRange hq h

/-- Taking an action keeps the ranges where the phases' own operations do. -/
theorem takeAction_lineInRange {f g : State → State} (hq : 0 < p.qdiv) (h : LineInRange p s.line)
    (hf : ∀ t : State, LineInRange p t.line → LineInRange p (f t).line)
    (hg : ∀ t : State, LineInRange p t.line → LineInRange p (g t).line) : LineInRange p (takeAction f g s).line := by
  unfold takeAction
  split
  case h_1 => exact hf _ h
  case h_2 => exact hg _ ⟨hq, h.bitcnt⟩
  all_goals exact h

theorem runAction_lineInRange (hq : 0 < p.qdiv) (h : LineInRange p s.line) (a : BitVec 3) :
    LineInRange p (runAction a s).line := by
  have drop : ∀ t : State, LineInRange p t.line → LineInRange p (dropped t).line := fun _ k => k
  rcases runAction_cases a s with ⟨-, e⟩ | ⟨-, e⟩ | ⟨-, e⟩ | ⟨-, e⟩ | ⟨-, e⟩ | ⟨-, e⟩ | ⟨-, e⟩ <;> rw [e]
  · exact takeAction_lineInRange hq h (fun t k => ⟨hq, k.bitcnt⟩) drop
  · exact takeAction_lineInRange hq h drop (fun t k => ⟨k.qcnt, by simp⟩)
  · exact takeAction_lineInRange hq h drop (fun t k => ⟨k.qcnt, by simp⟩)
  · exact takeAction_lineInRange hq h drop (fun t k => ⟨k.qcnt, k.bitcnt⟩)
  · exact takeAction_lineInRange hq h drop (fun t k => ⟨k.qcnt, k.bitcnt⟩)
  · exact takeAction_lineInRange hq h drop (fun t k => ⟨k.qcnt, k.bitcnt⟩)
  · exact takeAction_lineInRange hq h drop drop

theorem takePending_lineInRange (hq : 0 < p.qdiv) (h : LineInRange p s.line) :
    LineInRange p (takePending s).line := by
  unfold takePending
  split
  · exact runAction_lineInRange hq h _
  · exact h

theorem lineStepOp_lineInRange (hq : 0 < s.par.qdiv) (h : LineInRange s.par s.line) :
    LineInRange s.par (lineStepOp s).line := by
  have hd : LineInRange s.par (detector s).line := ⟨h.qcnt, h.bitcnt⟩
  by_cases hw : s.line.ph = .idle ∨ s.line.ph = .hold
  · rw [lineStepOp_waiting hw]
    exact takePending_lineInRange hq hd
  · obtain ⟨hi, hh⟩ := not_or.mp hw
    rw [lineStepOp_counting hi hh]
    exact countPhase_lineInRange (s := detector s) hq hd _

-- Timer and buttons

/-- The divider wraps at its top, the second counter is cut to its width (R141, R142). -/
theorem tbStepOp_timerInRange (ht : 0 < s.par.tickDiv) (h : TimerInRange s.par s.timer) :
    TimerInRange s.par (tbStepOp s).timer := by
  obtain ⟨ec, -, et⟩ := tickDivide_counter s
  have htdiv : (tbStepOp s).timer.tdiv < s.par.tickDiv := by
    have := h.tdiv
    rw [tbStepOp_tdiv]
    split <;> omega
  have hcount : (tickDivide s).timer.count.toNat < 2 ^ s.par.cw.val := ec ▸ h.count
  have htcount : (tickDivide s).timer.tcount.toNat < 2 ^ s.par.cw.val := et ▸ h.tcount
  rw [tbStepOp] at htdiv ⊢
  rcases secStepOp_cases (tickDivide s) with ⟨-, e⟩ | ⟨-, -, e⟩ | ⟨-, -, e⟩ <;> rw [e] at htdiv ⊢
  · exact ⟨htdiv, hcount, htcount⟩
  · exact ⟨htdiv, by simp, htcount⟩
  · exact ⟨htdiv, by rw [← tickDivide_par s]; exact fit_lt _ _, htcount⟩

/-- A hold starts again at its threshold, so it stays below it (R162, R166). -/
theorem pressSample_active_lt {lt : Byte} {c : PressCounter} (hl : 0 < lt) (h : c.active < lt) :
    (pressSample lt c).active < lt := by
  by_cases hc : c.active + 1 = lt
  · rw [pressSample_cross hc]; exact hl
  · rw [pressSample_count hc]
    show c.active + 1 < lt
    bv_omega

theorem releaseSample_active (c : PressCounter) : (releaseSample c).active = 0 := by
  by_cases hc : c.active ≠ 0 ∨ c.longFired = true
  · rw [releaseSample_held hc]
  · rw [not_or, not_not, Bool.not_eq_true] at hc
    rw [releaseSample_idle hc.1 hc.2]

/-- A press counter that a timebase step leaves, samples pressed or samples released stays below its threshold. -/
theorem sampled_active_lt {lt : Byte} {c d : PressCounter} (hl : 0 < lt) (h : c.active < lt)
    (hd : d = c ∨ d = pressSample lt c ∨ d = releaseSample c) : d.active < lt := by
  rcases hd with rfl | rfl | rfl
  · exact h
  · exact pressSample_active_lt hl h
  · rw [releaseSample_active]; exact hl

-- Sequencer

/-- What a handler step leaves of the registered slice and the operands, and how it moves the cursor (R88, R91). -/
structure CursorStep (s t : State) : Prop where
  bufStart : t.seq.bufStart = s.seq.bufStart
  length : t.seq.length = s.seq.length
  treq : t.seq.treq = s.seq.treq
  tptr : t.seq.tptr = s.seq.tptr
  tlen : t.seq.tlen = s.seq.tlen
  idx : t.seq.idx = s.seq.idx ∨ (s.seq.idx < s.seq.length ∧ t.seq.idx = s.seq.idx + 1)

/-- The two `H_WRITE_NEXT` rows are selected only with a slot left (R93). -/
theorem slot_left_of_writeNext {e : BitVec 4} {c : ArmContext} {a : Arm} (h : selectArm e c = a)
    (ha : a = .writeNextAddrAck ∨ a = .writeNextDataAck) : c.idx < c.length := by
  unfold selectArm at h
  rcases ha with rfl | rfl <;>
    simp only [ite_eq_iff, reduceCtorEq, and_false, false_or, or_false, and_true] at h
  · obtain ⟨-, -, -, -, -, -, -, -, -, hlt⟩ := h
    exact hlt
  · obtain ⟨-, -, -, -, -, -, -, -, -, -, hlt⟩ := h
    exact hlt

/-- An arm moves the cursor by at most one, and only with a slot left. -/
theorem runArm_cursorStep {a : Arm} (hw : a = .writeNextAddrAck ∨ a = .writeNextDataAck → s.seq.idx < s.seq.length) :
    CursorStep s (runArm a s) := by
  cases a
  case writeNextAddrAck => exact ⟨rfl, rfl, rfl, rfl, rfl, .inr ⟨hw (.inl rfl), rfl⟩⟩
  case writeNextDataAck => exact ⟨rfl, rfl, rfl, rfl, rfl, .inr ⟨hw (.inr rfl), rfl⟩⟩
  case readByte =>
    rcases readByteArm_cases s with ⟨hi, -, e⟩ | ⟨hi, -, e⟩ | ⟨-, e⟩ <;> rw [runArm, e]
    · exact ⟨rfl, rfl, rfl, rfl, rfl, .inr ⟨hi, rfl⟩⟩
    · exact ⟨rfl, rfl, rfl, rfl, rfl, .inr ⟨hi, rfl⟩⟩
    · exact ⟨rfl, rfl, rfl, rfl, rfl, .inl rfl⟩
  all_goals exact ⟨rfl, rfl, rfl, rfl, rfl, .inl rfl⟩

/-- The handler step's arm (R93). -/
theorem selectedArm_cursorStep (s : State) : CursorStep s (runArm (selectArm s.link.evCode (armContext s)) s) :=
  runArm_cursorStep (slot_left_of_writeNext (c := armContext s) rfl)

theorem CursorStep.seqInRange {t : State} (k : CursorStep s t) (h : SeqInRange p s.seq) : SeqInRange p t.seq := by
  have hlen := h.length
  refine ⟨k.bufStart ▸ h.bufStart, k.tptr ▸ h.tptr, k.length ▸ hlen, ?_, k.tlen ▸ h.tlen⟩
  rcases k.idx with e | ⟨hlt, e⟩ <;> rw [e]
  · exact h.idx
  · have : (s.seq.idx + 1).toNat ≤ s.seq.length.toNat := by bv_omega
    omega

-- Steps

/-- Reset values are in range for every legal value of the parameters (R31). -/
theorem resetBlock_unitsInRange (hp : PositiveBounds p) (s : State) : UnitsInRange p (resetBlock s) where
  line := ⟨hp.qdiv, (by decide : (0 : BitVec 4) ≤ 8)⟩
  timer := ⟨hp.tickDiv, Nat.two_pow_pos _, Nat.two_pow_pos _⟩
  bAdd := hp.longAdd
  bSet := hp.longSet
  seq := ⟨Nat.two_pow_pos _, Nat.two_pow_pos _, Nat.two_pow_pos _, Nat.two_pow_pos _, Nat.two_pow_pos _⟩

/-- Sampling keeps the elements or resets them all (R6 stage 1, R230). -/
theorem sampleInputs_unitsInRange (hp : PositiveBounds p) (h : UnitsInRange p s) :
    UnitsInRange p (sampleInputs s) := by
  cases hr : (nextStimulus s).rst
  case false =>
    rw [sampleInputs_run hr]
    exact ⟨h.line, h.timer, h.bAdd, h.bSet, h.seq⟩
  case true =>
    have k := resetBlock_unitsInRange hp (sampleAs (nextStimulus s) s)
    rw [sampleInputs_reset hr, answerInReset_eq]
    exact ⟨k.line, k.timer, k.bAdd, k.bSet, k.seq⟩

theorem sampleInputs_par (s : State) : (sampleInputs s).par = s.par := by
  cases hr : (nextStimulus s).rst
  case false => rw [sampleInputs_run hr]; rfl
  case true => rw [sampleInputs_reset hr, answerInReset_eq]; rfl

theorem tbStepOp_unitsInRange (hp : PositiveBounds s.par) (h : UnitsInRange s.par s) :
    UnitsInRange s.par (tbStepOp s) := by
  obtain ⟨hadd, hset⟩ := tbStepOp_buttons s
  have htimer := tbStepOp_timerInRange hp.tickDiv h.timer
  have ha := sampled_active_lt hp.longAdd h.bAdd hadd
  have hs := sampled_active_lt hp.longSet h.bSet hset
  obtain ⟨tm, a, b, e⟩ := tbStepOp_frame s
  rw [e] at htimer ha hs ⊢
  exact ⟨h.line, htimer, ha, hs, h.seq⟩

theorem lineStepOp_unitsInRange (hp : PositiveBounds s.par) (h : UnitsInRange s.par s) :
    UnitsInRange s.par (lineStepOp s) := by
  have f := lineStepOp_lineFrame s
  exact ⟨lineStepOp_lineInRange hp.qdiv h.line, f.timer ▸ h.timer, f.bAdd ▸ h.bAdd, f.bSet ▸ h.bSet, f.seq ▸ h.seq⟩

theorem selectedArm_unitsInRange (h : UnitsInRange p s) :
    UnitsInRange p (runArm (selectArm s.link.evCode (armContext s)) s) := by
  have f := runArm_frame (selectArm s.link.evCode (armContext s)) s
  exact ⟨f.line ▸ h.line, f.timer ▸ h.timer, f.bAdd ▸ h.bAdd, f.bSet ▸ h.bSet,
    (selectedArm_cursorStep s).seqInRange h.seq⟩

/-- A registered request is as wide as its operands (R81). -/
theorem acceptTransfer_seqInRange (h : SeqInRange p s.seq) : SeqInRange p (acceptTransfer s).seq :=
  ⟨h.tptr, h.tptr, h.tlen, Nat.two_pow_pos _, h.tlen⟩

/-- Write data is cut to the element's width (R64, R65). -/
theorem AccessEffect.unitsInRange {u : State} {i : Instr} (k : AccessEffect s i u) (h : UnitsInRange s.par s) :
    UnitsInRange s.par u := by
  obtain ⟨hline, htimer, ha, hs, hseq⟩ := h
  have same : ∀ q : Sequencer, q.bufStart = s.seq.bufStart → q.length = s.seq.length → q.idx = s.seq.idx →
      q.tptr.toNat < 2 ^ s.par.aw.val → q.tlen.toNat < 2 ^ s.par.lw.val → SeqInRange s.par q :=
    fun q e1 e2 e3 h1 h2 => ⟨e1 ▸ hseq.bufStart, h1, e2 ▸ hseq.length, e3 ▸ hseq.idx, h2⟩
  cases k
  case submit =>
    split
    · exact ⟨hline, htimer, ha, hs, acceptTransfer_seqInRange hseq⟩
    · exact ⟨hline, htimer, ha, hs, same _ rfl rfl rfl hseq.tptr hseq.tlen⟩
  case port => exact ⟨hline, htimer, ha, hs, hseq⟩
  case treq => exact ⟨hline, htimer, ha, hs, same _ rfl rfl rfl hseq.tptr hseq.tlen⟩
  case tptr => exact ⟨hline, htimer, ha, hs, same _ rfl rfl rfl (fit_lt _ _) hseq.tlen⟩
  case tlen => exact ⟨hline, htimer, ha, hs, same _ rfl rfl rfl hseq.tptr (fit_lt _ _)⟩
  case tcount => exact ⟨hline, ⟨htimer.tdiv, htimer.count, fit_lt _ _⟩, ha, hs, hseq⟩
  case start => exact ⟨hline, ⟨htimer.tdiv, htimer.tcount, htimer.tcount⟩, ha, hs, hseq⟩
  case stop => exact ⟨hline, ⟨htimer.tdiv, htimer.count, htimer.count⟩, ha, hs, hseq⟩
  case ack => exact ⟨hline, ⟨htimer.tdiv, htimer.count, htimer.tcount⟩, ha, hs, hseq⟩

/-- Going on to the next stage writes no element. -/
theorem UnitsInRange.advance (h : UnitsInRange p s) : UnitsInRange p (advance s) :=
  ⟨h.line, h.timer, h.bAdd, h.bSet, h.seq⟩

/-- One step, stage by stage (R6): the ranges of the parameters it starts with, which it keeps (R3). -/
theorem step_unitsInRange {t : State} (hp : PositiveBounds s.par) (h : UnitsInRange s.par s)
    (ht : step s = .next t) : UnitsInRange s.par t ∧ t.par = s.par := by
  rcases step_stages ht with
    ⟨-, rfl⟩ | ⟨-, rfl⟩ | ⟨-, rfl⟩ | ⟨-, rfl⟩ | ⟨-, -, rfl⟩ | ⟨-, w, u, hu, rfl⟩
  · exact ⟨sampleInputs_unitsInRange hp h, sampleInputs_par s⟩
  · exact ⟨h.advance, rfl⟩
  · obtain ⟨tm, a, b, e⟩ := tbStepOp_frame s
    exact ⟨(tbStepOp_unitsInRange hp h).advance, by rw [e]; rfl⟩
  · exact ⟨(lineStepOp_unitsInRange hp h).advance, (lineStepOp_lineFrame s).par⟩
  · exact ⟨(selectedArm_unitsInRange h).advance, (runArm_frame _ s).par⟩
  · obtain ⟨v, hv, k⟩ := decodeAccess_accessEffect w s
    cases Host.Outcome.next.inj (hu.symm.trans hv)
    exact ⟨(k.unitsInRange h).advance, k.par⟩

end UnitRanges

-- The obligations --------------------------------------------------------------------------------------------------

/-- Settles O53, unit by unit and stage by stage. -/
theorem stepKeepsCountersInRange : Obligations.StepKeepsCountersInRange := by
  intro s t hp h ht
  obtain ⟨k, hpar⟩ := step_unitsInRange (.of_legal hp) ((countersInRange_iff s).mp h) ht
  exact ⟨(countersInRange_iff t).mpr (hpar ▸ k), hpar⟩

/-- Settles O11: the access meets the timer as the timebase step of its cycle has left it. -/
theorem sameCycleCommandsFollowTheTimebase : Obligations.SameCycleCommandsFollowTheTimebase := by
  intro s x rest hs hx hr htb
  have htimer : (beforeHost x s).timer = (tbStepOp (sampleAs x s)).timer := by rw [beforeHost_timer, if_pos htb]
  have hstage := after_beforeHost_stage x s
  constructor
  · intro hw hrun hcount
    obtain ⟨hc, hp⟩ := tbStepOp_overflow (s := sampleAs x s) hrun hcount
    rw [← htimer] at hc hp
    exact ⟨_, run_cycle_access hs hx hr hw (exec_tStopWord _), hstage, beforeHost_script hx, hc, hc, rfl, hp⟩
  · intro hw hdiv
    have ht : (beforeHost x s).timer.tdiv = 0 := by rw [htimer, tbStepOp_tdiv]; exact if_pos hdiv
    exact ⟨_, run_cycle_access hs hx hr hw (exec_ackTickWord _), hstage, beforeHost_script hx, ht, rfl⟩

/-- Settles O12: the four stages before the host leave the bus engine alone, and so does the access. -/
theorem powerDownFreezesTheBusEngine : Obligations.PowerDownFreezesTheBusEngine := by
  intro s x rest hs hx hr hp hsub
  obtain ⟨hseq, hlink, hline⟩ := beforeHost_powerDown_busEngine hp s
  have htdiv : x.tbEn = true → (beforeHost x s).timer.tdiv =
      if s.timer.tdiv = s.par.tickDiv - 1 then 0 else s.timer.tdiv + 1 := fun htb => by
    rw [beforeHost_timer, if_pos htb]
    exact tbStepOp_tdiv (sampleAs x s)
  have hcycle : ∃ u, Host.Core.run core 5 s = .next (advance u) ∧ AccessFrame (beforeHost x s) u := by
    cases hw : x.access with
    | none => exact ⟨_, run_cycle_quiet hs hx hr hw, .refl _⟩
    | some w =>
      obtain ⟨u, hu, k⟩ := decodeAccess_accessEffect w (beforeHost x s)
      exact ⟨u, run_cycle_access hs hx hr hw hu, k.frame (hsub w hw)⟩
  obtain ⟨u, hrun, f⟩ := hcycle
  refine ⟨advance u, hrun, ?_, f.line.trans hline, f.link.trans hlink, ?_, ?_, ?_, fun htb => f.tdiv.trans (htdiv htb)⟩
  · rw [advance_io_stage, f.stage]
    exact after_beforeHost_stage x s
  · rw [advance_seq, f.state, hseq]
  · rw [advance_seq, f.pending, hseq]
  · rw [advance_seq, f.idx, hseq]

/-- Settles O6. -/
theorem hostStageRunsTheDecodedWord : Obligations.HostStageRunsTheDecodedWord :=
  ⟨fun _ w hs hw => ⟨decodeAccess_wellFormed w, step_host_access hs hw⟩, fun _ hs hw => step_host_quiet hs hw⟩

/-- Settles O7. -/
theorem agentStagesRunTheirOperation : Obligations.AgentStagesRunTheirOperation := by
  refine fun s => ⟨step_timebase, step_line, fun hs => ?_⟩
  rw [step_handler hs]
  simp only [handlerEnabled_iff]

/-- Settles O8. -/
theorem samplingTakesTheCyclesInputs : Obligations.SamplingTakesTheCyclesInputs := by
  intro s hs hr
  refine ⟨sampleAs (nextStimulus s) s, ?_, rfl, rfl, rfl, rfl, rfl, rfl, rfl, rfl, rfl, rfl, rfl, rfl, rfl, rfl, rfl,
    fun a => memRead_hostStores a _ _⟩
  rw [step_sample hs, sampleInputs_run hr]

end Sys2Proof.Machine

/-! Proofs of the family 10_state: who holds a transfer in flight and how each step hands it on, the writers of every
element, the reset cycle, and the tick divider. -/

namespace Sys2Proof.Machine

-- One step by its stage (R6) ---------------------------------------------------------------------------------------

/-- What a step makes of a state, by the stage it is at; the host's access is named (R5, R6). -/
theorem step_byStage {s t : State} (h : step s = .next t) :
    (s.io.stage = .sample ∧ t = sampleInputs s) ∨ (s.io.stage = .timebase ∧ t = timebaseStage s) ∨
    (s.io.stage = .line ∧ t = lineStage s) ∨ (s.io.stage = .handler ∧ t = handlerStage s) ∨
    (s.io.stage = .host ∧ s.io.cur.access = none ∧ t = advance s) ∨
    (s.io.stage = .host ∧ ∃ w u, s.io.cur.access = some w ∧ AccessEffect s (decodeAccess w) u ∧ t = advance u) := by
  cases hs : s.io.stage with
  | sample => exact .inl ⟨rfl, Host.Outcome.next.inj (h.symm.trans (step_sample hs))⟩
  | timebase => exact .inr (.inl ⟨rfl, Host.Outcome.next.inj (h.symm.trans (step_eq_timebaseStage hs))⟩)
  | line => exact .inr (.inr (.inl ⟨rfl, Host.Outcome.next.inj (h.symm.trans (step_eq_lineStage hs))⟩))
  | handler => exact .inr (.inr (.inr (.inl ⟨rfl, Host.Outcome.next.inj (h.symm.trans (step_eq_handlerStage hs))⟩)))
  | host =>
    right; right; right; right
    cases hw : s.io.cur.access with
    | none => exact .inl ⟨rfl, rfl, Host.Outcome.next.inj (h.symm.trans (step_host_quiet hs hw))⟩
    | some w =>
      obtain ⟨u, hu, k⟩ := decodeAccess_accessEffect w s
      refine .inr ⟨rfl, w, u, rfl, k, Host.Outcome.next.inj (h.symm.trans ?_)⟩
      rw [step_host_access hs hw, hu, onNext]

-- Who holds the transfer (R32) -------------------------------------------------------------------------------------

/-- No transfer is registered: nothing is latched and the line engine is idle. -/
structure Unengaged (s : State) : Prop where
  pending : s.seq.pending = false
  bufValid : s.seq.bufValid = false
  state : s.seq.state = .idle
  outcome : s.seq.outcome ≠ .inProgress
  evPending : s.link.evPending = false
  actValid : s.link.actValid = false
  phase : s.line.ph = .idle

/-- A transfer is registered and not yet over. -/
structure Registered (s : State) : Prop where
  pending : s.seq.pending = true
  bufValid : s.seq.bufValid = true
  state : s.seq.state ≠ .idle
  outcome : s.seq.outcome = .inProgress

/-- Which of the three holds a transfer in flight: the event latch, the action latch, or a running phase. -/
inductive Holder (s : State) : Prop
  | event (ev : s.link.evPending = true) (act : s.link.actValid = false) (fits : EventFits s)
  | action (ev : s.link.evPending = false) (act : s.link.actValid = true) (fits : ActionFits s)
  | phase (ev : s.link.evPending = false) (act : s.link.actValid = false) (fits : PhaseFits s)

/-- `Consistent` without its clause about the stage of the cycle. -/
structure Aligned (s : State) : Prop where
  final_terminal : s.seq.finalOutcome ≠ .inProgress
  cursor : s.seq.idx ≤ s.seq.length
  standing : Unengaged s ∨ Registered s ∧ Holder s

/-- An event noted at the start of the cycle is still pending until the handler stage is over. -/
def EventStillPending (s : State) : Prop :=
  s.io.evAtStart = true → (s.io.stage = .timebase ∨ s.io.stage = .line ∨ s.io.stage = .handler) →
    s.link.evPending = true

theorem Consistent.aligned {s : State} (h : Consistent s) : Aligned s := by
  refine ⟨h.final_terminal, h.cursor, ?_⟩
  cases hp : s.seq.pending with
  | false =>
    obtain ⟨hev, hact, hph⟩ := h.quiet hp
    refine .inl ⟨hp, h.registered.trans hp, h.idle_iff.mpr hp, fun ho => ?_, hev, hact, hph⟩
    exact absurd (hp.symm.trans (h.outcome_iff.mp ho)) (by decide)
  | true =>
    refine .inr ⟨⟨hp, h.registered.trans hp, fun hi => ?_, h.outcome_iff.mpr hp⟩, ?_⟩
    · exact absurd (hp.symm.trans (h.idle_iff.mp hi)) (by decide)
    · rcases h.engaged hp with ⟨hev, hact, k⟩ | ⟨hev, hact, k⟩ | ⟨hev, hact, k⟩
      · exact .event hev hact k
      · exact .action hev hact k
      · exact .phase hev hact k

theorem Aligned.consistent {s : State} (h : Aligned s) (early : EventStillPending s) : Consistent s := by
  rcases h.standing with k | ⟨k, holder⟩
  · exact
      { registered := k.bufValid.trans k.pending.symm
        idle_iff := iff_of_true k.state k.pending
        outcome_iff := iff_of_false k.outcome (by simp [k.pending])
        final_terminal := h.final_terminal
        cursor := h.cursor
        quiet := fun _ => ⟨k.evPending, k.actValid, k.phase⟩
        engaged := fun hp => absurd (hp.symm.trans k.pending) (by decide)
        early := early }
  · exact
      { registered := k.bufValid.trans k.pending.symm
        idle_iff := iff_of_false k.state (by simp [k.pending])
        outcome_iff := iff_of_true k.outcome k.pending
        final_terminal := h.final_terminal
        cursor := h.cursor
        quiet := fun hp => absurd (hp.symm.trans k.pending) (by decide)
        engaged := fun _ => by
          cases holder with
          | event hev hact fits => exact .inl ⟨hev, hact, fits⟩
          | action hev hact fits => exact .inr (.inl ⟨hev, hact, fits⟩)
          | phase hev hact fits => exact .inr (.inr ⟨hev, hact, fits⟩)
        early := early }

/-- Reset values are consistent (R31). -/
theorem consistent_of_reset {s : State} (hseq : s.seq = Sequencer.reset) (hlink : s.link = Latches.reset)
    (hline : s.line = LineEngine.reset) (hstage : s.io.stage = .sample) : Consistent s := by
  have standing : Unengaged s := by
    constructor <;> simp [hseq, hlink, hline, Sequencer.reset, Latches.reset, LineEngine.reset]
  refine Aligned.consistent ⟨?_, ?_, .inl standing⟩ ?_
  · simp [hseq, Sequencer.reset]
  · simp [hseq, Sequencer.reset]
  · simp [EventStillPending, hstage]

-- The line engine keeps the transfer held (R114 to R127) -----------------------------------------------------------

/-- A latched event leaves the line engine waiting (R32 (a)). -/
theorem EventFits.waiting {s : State} (h : EventFits s) : s.line.ph = .idle ∨ s.line.ph = .hold := by
  rcases h with ⟨-, h⟩ | ⟨-, h, -⟩ | ⟨-, h, -⟩ | ⟨-, h, -⟩ | ⟨-, h, -⟩ <;> simp [h]

theorem ActionFits.waiting {s : State} (h : ActionFits s) : s.line.ph = .idle ∨ s.line.ph = .hold := by
  rcases h with ⟨-, h, -⟩ | ⟨-, h, -⟩ | ⟨-, h, -⟩ | ⟨-, h, -⟩ | ⟨-, h, -⟩ <;> simp [h]

theorem PhaseFits.counting {s : State} (h : PhaseFits s) : s.line.ph ≠ .idle ∧ s.line.ph ≠ .hold := by
  constructor <;> intro hp <;> simp [PhaseFits, hp] at h

/-- In a phase of a cell, the cell's unit is what the sequencer waits for. -/
theorem PhaseFits.unitFits {s : State} (h : PhaseFits s)
    (hp : s.line.ph = .q1 ∨ s.line.ph = .q2 ∨ s.line.ph = .q3 ∨ s.line.ph = .q4) : UnitFits s := by
  rcases hp with hp | hp | hp | hp <;> simpa [PhaseFits, hp] using h

/-- In a phase of the start condition the sequencer is addressing. -/
theorem PhaseFits.addressing {s : State} (h : PhaseFits s)
    (hp : s.line.ph = .st0 ∨ s.line.ph = .st1 ∨ s.line.ph = .st2) : s.seq.state = .addressing := by
  rcases hp with hp | hp | hp <;> simpa [PhaseFits, hp] using h

/-- In a phase of the stop condition the sequencer is stopping. -/
theorem PhaseFits.stopping {s : State} (h : PhaseFits s)
    (hp : s.line.ph = .sp0 ∨ s.line.ph = .sp1 ∨ s.line.ph = .sp2 ∨ s.line.ph = .sp3) : s.seq.state = .stopping := by
  rcases hp with hp | hp | hp | hp <;> simpa [PhaseFits, hp] using h

/-- Taking a fitting action starts a phase that fits (R131 to R136). -/
theorem ActionFits.runAction_holder {s : State} (h : ActionFits s) (hev : s.link.evPending = false) :
    Holder (runAction s.link.actCode s) := by
  rcases h with ⟨hc, hp, hs⟩ | ⟨hc, hp, hs, hd⟩ | ⟨hc | hc, hp, hs, hd⟩ | ⟨hc, hp, hs, hd⟩ | ⟨hc, hp, hs⟩ <;> rw [hc]
  · rw [show runAction actStartAddr s = startAddrOp s from rfl, startAddrOp, takeAction_idle _ _ hp]
    exact .phase hev rfl hs
  · rw [show runAction actSend s = sendOp s from rfl, sendOp, takeAction_hold _ _ hp]
    exact .phase hev rfl ⟨hs, hd⟩
  · rw [show runAction actRecv s = recvOp s from rfl, recvOp, takeAction_hold _ _ hp]
    exact .phase hev rfl ⟨hs, hd⟩
  · rw [show runAction actAckRecv s = ackRecvOp s from rfl, ackRecvOp, takeAction_hold _ _ hp]
    exact .phase hev rfl ⟨hs, hd⟩
  · rw [show runAction actNackStop s = nackStopOp s from rfl, nackStopOp, takeAction_hold _ _ hp]
    exact .phase hev rfl ⟨hs, hd⟩
  · rw [show runAction actStop s = stopOp s from rfl, stopOp, takeAction_hold _ _ hp]
    exact .phase hev rfl hs

/-- An abort reports a line fault, whatever the sequencer waits for (R129). -/
theorem abort_holder {s : State} {e : BitVec 4} (he : e = evArbLost ∨ e = evBusError)
    (hact : s.link.actValid = false) : Holder (abort e s) :=
  .event rfl hact (.inl ⟨he, rfl⟩)

/-- The sample of a cell writes only the shift register and the acknowledge bit (R121). -/
theorem sampleCell_frame (s : State) :
    ∃ r b, sampleCell s = { s with line := { s.line with shreg := r, ackbit := b } } := by
  unfold sampleCell
  split
  · exact ⟨_, _, rfl⟩
  · split <;> exact ⟨_, _, rfl⟩

/-- The last cell of a unit reports the event its sequencer state waits for, or goes on with what follows (R122). -/
theorem endCell_holder {s : State} (hev : s.link.evPending = false) (hact : s.link.actValid = false)
    (h : UnitFits s) : Holder (endCell s) := by
  have next : Holder (nextCell s) := .phase hev hact h
  unfold endCell
  cases hu : s.line.unit <;> simp only [UnitFits, hu] at h <;> dsimp only
  case addr =>
    split
    · exact next
    · refine .event rfl hact (.inr (.inl ⟨?_, rfl, h⟩))
      simp only [raiseEvent_link_evCode, sentEvent, hu, if_true]
      cases s.line.ackbit <;> simp
  case tx =>
    split
    · exact next
    · refine .event rfl hact (.inr (.inr (.inl ⟨?_, rfl, h⟩)))
      simp only [raiseEvent_link_evCode, sentEvent, hu, reduceCtorEq, if_false]
      cases s.line.ackbit <;> simp
  case rx =>
    split
    · exact next
    · exact .event rfl hact (.inr (.inr (.inr (.inl ⟨rfl, rfl, h⟩))))
  case ack => exact .phase hev hact h
  case nack => exact .phase hev hact h.1

/-- The end of a phase leaves the transfer with the next phase or with the event latch (R116 to R126). -/
theorem phaseEnd_holder {s : State} (hev : s.link.evPending = false) (hact : s.link.actValid = false)
    (h : PhaseFits s) : Holder (phaseEnd s) := by
  have stays : Holder s := .phase hev hact h
  unfold phaseEnd
  cases hp : s.line.ph <;> dsimp only
  case idle => exact stays
  case hold => exact stays
  case st0 =>
    unfold endSt0
    split
    · exact abort_holder (.inl rfl) hact
    · exact .phase hev hact (h.addressing (.inl hp))
  case st1 => exact .phase hev hact (h.addressing (.inr (.inl hp)))
  case st2 => exact .phase hev hact (h.addressing (.inr (.inr hp)))
  case q1 => exact .phase hev hact (h.unitFits (.inl hp))
  case q2 => exact .phase hev hact (h.unitFits (.inr (.inl hp)))
  case q3 =>
    have k := h.unitFits (.inr (.inr (.inl hp)))
    unfold endQ3
    split
    · exact abort_holder (.inl rfl) hact
    · obtain ⟨r, b, e⟩ := sampleCell_frame s
      rw [e]
      exact .phase hev hact k
  case q4 => exact endCell_holder (s := driveScl false s) hev hact (h.unitFits (.inr (.inr (.inr hp))))
  case sp0 => exact .phase hev hact (h.stopping (.inl hp))
  case sp1 => exact .phase hev hact (h.stopping (.inr (.inl hp)))
  case sp2 => exact .phase hev hact (h.stopping (.inr (.inr (.inl hp))))
  case sp3 =>
    unfold endSp3
    split
    · exact .event rfl hact (.inr (.inr (.inr (.inr ⟨rfl, rfl, h.stopping (.inr (.inr (.inr hp)))⟩))))
    · exact stays

theorem countPhase_holder {s : State} (bad : Bool) (hev : s.link.evPending = false) (hact : s.link.actValid = false)
    (h : PhaseFits s) : Holder (countPhase bad s) := by
  rcases countPhase_cases bad s with ⟨-, -, e⟩ | ⟨-, ⟨-, -, e⟩ | ⟨-, -, e⟩ | ⟨-, -, e⟩⟩ <;> rw [e]
  · exact abort_holder (.inr rfl) hact
  · exact .phase hev hact h
  · exact .phase hev hact h
  · exact phaseEnd_holder hev hact h

/-- With nothing latched, a waiting line engine only observes the wires (R111, R114, R115). -/
theorem lineStepOp_nothingLatched {s : State} (hp : s.line.ph = .idle ∨ s.line.ph = .hold)
    (hact : s.link.actValid = false) : lineStepOp s = detector s := by
  rw [lineStepOp_waiting hp]
  exact if_neg (by simp [hact])

/-- A line step hands a transfer in flight from one holder to another (R114, R115, R122, R126, R129). -/
theorem lineStepOp_holder {s : State} (h : Holder s) : Holder (lineStepOp s) := by
  cases h with
  | event hev hact fits =>
    rw [lineStepOp_nothingLatched fits.waiting hact]
    exact .event hev hact fits
  | action hev hact fits =>
    rw [lineStepOp_waiting fits.waiting, takePending, detector_link, if_pos hact]
    exact ActionFits.runAction_holder (s := detector s) fits hev
  | phase hev hact fits =>
    obtain ⟨hi, hh⟩ := fits.counting
    rw [lineStepOp_counting hi hh]
    exact countPhase_holder (s := detector s) _ hev hact fits

theorem lineStepOp_unengaged {s : State} (h : Unengaged s) : Unengaged (lineStepOp s) := by
  rw [lineStepOp_nothingLatched (.inl h.phase) h.actValid]
  exact ⟨h.pending, h.bufValid, h.state, h.outcome, h.evPending, h.actValid, h.phase⟩

theorem lineStepOp_aligned {s : State} (h : Aligned s) : Aligned (lineStepOp s) := by
  have hseq := (lineStepOp_lineFrame s).seq
  refine ⟨hseq ▸ h.final_terminal, hseq ▸ h.cursor, ?_⟩
  rcases h.standing with k | ⟨k, holder⟩
  · exact .inl (lineStepOp_unengaged k)
  · refine .inr ⟨?_, lineStepOp_holder holder⟩
    constructor <;> rw [hseq]
    exacts [k.pending, k.bufValid, k.state, k.outcome]

-- The handler step keeps the transfer held, or ends it (R84 to R93) ------------------------------------------------

/-- The arms a fitting event selects, with what the state then shows (R93): neither of the two that only drop it. -/
inductive FittingArm (s : State) : Arm → Prop
  | faultArbLost (hp : s.line.ph = .idle) : FittingArm s .faultArbLost
  | faultBusError (hp : s.line.ph = .idle) : FittingArm s .faultBusError
  | nackAddr (hp : s.line.ph = .hold) : FittingArm s .nackAddr
  | nackData (hp : s.line.ph = .hold) : FittingArm s .nackData
  | stopDone (hp : s.line.ph = .idle) : FittingArm s .stopDone
  | writeNextAddrAck (hp : s.line.ph = .hold) (hd : s.seq.dir = false) (hlt : s.seq.idx < s.seq.length) :
      FittingArm s .writeNextAddrAck
  | writeNextDataAck (hp : s.line.ph = .hold) (hd : s.seq.dir = false) (hlt : s.seq.idx < s.seq.length) :
      FittingArm s .writeNextDataAck
  | writeDoneAddrAck (hp : s.line.ph = .hold) : FittingArm s .writeDoneAddrAck
  | writeDoneDataAck (hp : s.line.ph = .hold) : FittingArm s .writeDoneDataAck
  | readFirst (hp : s.line.ph = .hold) (hd : s.seq.dir = true) : FittingArm s .readFirst
  | readByte (hp : s.line.ph = .hold) (hs : s.seq.state = .reading) (hd : s.seq.dir = true) : FittingArm s .readByte

/-- With a transfer registered and the cursor within the length, a fitting event is never dropped (R84, R92, R93). -/
theorem EventFits.fittingArm {s : State} (h : EventFits s) (hv : s.seq.bufValid = true)
    (hc : s.seq.idx ≤ s.seq.length) : FittingArm s (selectArm s.link.evCode (armContext s)) := by
  have slot : s.seq.idx < s.seq.length ∨ s.seq.idx = s.seq.length := by bv_omega
  have by_row {a : Arm} (e : selectArm s.link.evCode (armContext s) = a) (k : FittingArm s a) :
      FittingArm s (selectArm s.link.evCode (armContext s)) := e ▸ k
  rcases h with ⟨he | he, hp⟩ | ⟨he | he, hp, hs⟩ | ⟨he | he, hp, hs, hd⟩ | ⟨he, hp, hs, hd⟩ | ⟨he, hp, hs⟩
  · exact by_row (by simp [selectArm, armContext, he, hv]) (.faultArbLost hp)
  · exact by_row (by simp [selectArm, armContext, he, hv]) (.faultBusError hp)
  · cases hd : s.seq.dir
    · rcases slot with hlt | heq
      · exact by_row (by simp [selectArm, armContext, he, hv, hs, hd, hlt]) (.writeNextAddrAck hp hd hlt)
      · exact by_row (by simp [selectArm, armContext, he, hv, hs, hd, heq]) (.writeDoneAddrAck hp)
    · exact by_row (by simp [selectArm, armContext, he, hv, hs, hd]) (.readFirst hp hd)
  · exact by_row (by simp [selectArm, armContext, he, hv, hs]) (.nackAddr hp)
  · rcases slot with hlt | heq
    · exact by_row (by simp [selectArm, armContext, he, hv, hs, hd, hlt]) (.writeNextDataAck hp hd hlt)
    · exact by_row (by simp [selectArm, armContext, he, hv, hs, hd, heq]) (.writeDoneDataAck hp)
  · exact by_row (by simp [selectArm, armContext, he, hv, hs]) (.nackData hp)
  · exact by_row (by simp [selectArm, armContext, he, hv, hs, hd]) (.readByte hp hs hd)
  · exact by_row (by simp [selectArm, armContext, he, hv, hs]) (.stopDone hp)

/-- A handler step keeps the cursor within the length (R12). -/
theorem CursorStep.cursor {s t : State} (k : CursorStep s t) (h : s.seq.idx ≤ s.seq.length) :
    t.seq.idx ≤ t.seq.length := by
  rw [k.length]
  rcases k.idx with e | ⟨hlt, e⟩ <;> rw [e]
  · exact h
  · bv_omega

/-- Recording a terminal outcome with nothing latched and the line engine idle leaves no transfer (R85, R87). -/
theorem finish_unengaged {s : State} {o : BusOutcome} (ho : o ≠ .inProgress) (hev : s.link.evPending = false)
    (hact : s.link.actValid = false) (hp : s.line.ph = .idle) : Unengaged (finish o s) :=
  ⟨rfl, rfl, rfl, ho, hev, hact, hp⟩

/-- `A_STOP` is issued from `P_HOLD` (R86, R89). -/
theorem beginStop_actStop_holder {s : State} {o : BusOutcome} (hev : s.link.evPending = false)
    (hp : s.line.ph = .hold) : Holder (beginStop o actStop s) :=
  .action hev rfl (.inr (.inr (.inr (.inr ⟨rfl, hp, rfl⟩))))

/-- An arm that keeps the transfer leaves an action in the latch; the others end it (R85 to R91). -/
theorem FittingArm.aligned {s : State} {a : Arm} (k : FittingArm s a) (h : Aligned s) (r : Registered s)
    (hact : s.link.actValid = false) (hc : (runArm a s).seq.idx ≤ (runArm a s).seq.length) : Aligned (runArm a s) := by
  have hfault (hp : s.line.ph = .idle) : Unengaged (faultArm s) := finish_unengaged (by decide) rfl hact hp
  have hstop (o : BusOutcome) (hp : s.line.ph = .hold) : Holder (beginStop o actStop (takeEvent s)) :=
    beginStop_actStop_holder rfl hp
  have stopping (o : BusOutcome) : Registered (beginStop o actStop (takeEvent s)) :=
    ⟨r.pending, r.bufValid, by simp, r.outcome⟩
  have hnext (hp : s.line.ph = .hold) (hd : s.seq.dir = false) : Holder (writeNextArm s) :=
    .action rfl rfl (.inr (.inl ⟨rfl, hp, rfl, hd⟩))
  have writing : Registered (writeNextArm s) := ⟨r.pending, r.bufValid, nofun, r.outcome⟩
  cases k with
  | faultArbLost hp => exact ⟨h.final_terminal, hc, .inl (hfault hp)⟩
  | faultBusError hp => exact ⟨h.final_terminal, hc, .inl (hfault hp)⟩
  | nackAddr hp => exact ⟨nofun, hc, .inr ⟨stopping _, hstop _ hp⟩⟩
  | nackData hp => exact ⟨nofun, hc, .inr ⟨stopping _, hstop _ hp⟩⟩
  | stopDone hp => exact ⟨h.final_terminal, hc, .inl (finish_unengaged h.final_terminal rfl hact hp)⟩
  | writeNextAddrAck hp hd => exact ⟨h.final_terminal, hc, .inr ⟨writing, hnext hp hd⟩⟩
  | writeNextDataAck hp hd => exact ⟨h.final_terminal, hc, .inr ⟨writing, hnext hp hd⟩⟩
  | writeDoneAddrAck hp => exact ⟨nofun, hc, .inr ⟨stopping _, hstop _ hp⟩⟩
  | writeDoneDataAck hp => exact ⟨nofun, hc, .inr ⟨stopping _, hstop _ hp⟩⟩
  | readFirst hp hd =>
    exact ⟨h.final_terminal, hc, .inr ⟨⟨r.pending, r.bufValid, nofun, r.outcome⟩,
      .action rfl rfl (.inr (.inr (.inl ⟨.inl rfl, hp, rfl, hd⟩)))⟩⟩
  | readByte hp hs hd =>
    rw [runArm] at hc ⊢
    rcases readByteArm_cases s with ⟨-, -, e⟩ | ⟨-, -, e⟩ | ⟨-, e⟩ <;> rw [e] at hc ⊢
    · exact ⟨h.final_terminal, hc, .inr ⟨⟨r.pending, r.bufValid, r.state, r.outcome⟩,
        .action rfl rfl (.inr (.inr (.inl ⟨.inr rfl, hp, hs, hd⟩)))⟩⟩
    · exact ⟨nofun, hc, .inr ⟨⟨r.pending, r.bufValid, nofun, r.outcome⟩,
        .action rfl rfl (.inr (.inr (.inr (.inl ⟨rfl, hp, rfl, hd⟩))))⟩⟩
    · exact ⟨nofun, hc, .inr ⟨⟨r.pending, r.bufValid, nofun, r.outcome⟩,
        .action rfl rfl (.inr (.inr (.inr (.inl ⟨rfl, hp, rfl, hd⟩))))⟩⟩

/-- A pending event belongs to a registered transfer, which it holds alone. -/
theorem Aligned.of_evPending {s : State} (h : Aligned s) (hev : s.link.evPending = true) :
    Registered s ∧ s.link.actValid = false ∧ EventFits s := by
  rcases h.standing with k | ⟨r, holder⟩
  · exact absurd (hev.symm.trans k.evPending) (by decide)
  · cases holder with
    | event _ hact fits => exact ⟨r, hact, fits⟩
    | action hne => exact absurd (hev.symm.trans hne) (by decide)
    | phase hne => exact absurd (hev.symm.trans hne) (by decide)

/-- The handler step on a pending event (R93). -/
theorem selectedArm_aligned {s : State} (h : Aligned s) (hev : s.link.evPending = true) :
    Aligned (runArm (selectArm s.link.evCode (armContext s)) s) := by
  obtain ⟨r, hact, fits⟩ := h.of_evPending hev
  exact (fits.fittingArm r.bufValid h.cursor).aligned h r hact ((selectedArm_cursorStep s).cursor h.cursor)

-- The host's access keeps the transfer held, or begins one (R81) ---------------------------------------------------

/-- A `SUBMIT` is accepted only with no transfer pending and the line engine idle (R81). -/
theorem submitAccepted_iff (s : State) :
    submitAccepted s = true ↔ s.seq.pending = false ∧ s.line.ph = .idle ∧ s.line.busyDet = false ∧
      s.io.sdaIn = true ∧ s.io.sclIn = true := by
  simp [submitAccepted, busIdle, and_assoc]

/-- An accepted `SUBMIT` hands the new transfer to the action latch (R81, R83). -/
theorem acceptTransfer_aligned {s : State} (h : Aligned s) (ha : submitAccepted s = true) :
    Aligned (acceptTransfer s) := by
  obtain ⟨hp, hph, -⟩ := (submitAccepted_iff s).mp ha
  have hev : s.link.evPending = false := by
    rcases h.standing with k | ⟨r, -⟩
    · exact k.evPending
    · exact absurd (hp.symm.trans r.pending) (by decide)
  exact ⟨h.final_terminal, BitVec.le_def.mpr (Nat.zero_le _),
    .inr ⟨⟨rfl, rfl, nofun, rfl⟩, .action hev rfl (.inl ⟨rfl, hph, rfl⟩)⟩⟩

/-- `Aligned` reads nothing of the operands, `sub_acc`, the other units, the buffer space and the cycle. -/
theorem Aligned.of_sameTransfer {s : State} (h : Aligned s) (acc : Bool) (a : Byte) (p : BufAddr) (n : BufLen)
    (tm : Timer) (ba bs : PressCounter) (m : Memory) (io : CycleIo) (par : Params) :
    Aligned ⟨{ s.seq with subAcc := acc, treq := a, tptr := p, tlen := n }, s.link, s.line, tm, ba, bs, m, io,
      par⟩ := by
  refine ⟨h.final_terminal, h.cursor, ?_⟩
  rcases h.standing with k | ⟨r, holder⟩
  · exact .inl ⟨k.pending, k.bufValid, k.state, k.outcome, k.evPending, k.actValid, k.phase⟩
  · refine .inr ⟨⟨r.pending, r.bufValid, r.state, r.outcome⟩, ?_⟩
    cases holder with
    | event hev hact fits => exact .event hev hact fits
    | action hev hact fits => exact .action hev hact fits
    | phase hev hact fits => exact .phase hev hact fits

theorem Aligned.advance {s : State} (h : Aligned s) : Aligned (advance s) := h.of_sameTransfer ..

theorem AccessEffect.aligned {s u : State} {i : Instr} (k : AccessEffect s i u) (h : Aligned s) : Aligned u := by
  cases k
  case submit =>
    split
    next ha => exact acceptTransfer_aligned h ha
    next => exact h.of_sameTransfer ..
  all_goals exact h.of_sameTransfer ..

-- One step ---------------------------------------------------------------------------------------------------------

/-- Sampling notes the event latch, or resets the block (R6 stage 1, R230). -/
theorem sampleInputs_consistent {s : State} (h : Consistent s) : Consistent (sampleInputs s) := by
  cases hr : (nextStimulus s).rst with
  | false =>
    rw [sampleInputs_run hr]
    exact Aligned.consistent (h.aligned.of_sameTransfer ..) fun hev _ => hev
  | true =>
    rw [sampleInputs_reset hr, answerInReset_eq]
    exact consistent_of_reset rfl rfl rfl rfl

theorem timebaseStage_aligned {s : State} (h : Aligned s) : Aligned (timebaseStage s) := by
  obtain ⟨tm, a, b, e⟩ := tbStepOp_frame s
  unfold timebaseStage
  split
  · rw [e]; exact h.of_sameTransfer ..
  · exact h.advance

theorem lineStage_aligned {s : State} (h : Aligned s) : Aligned (lineStage s) := by
  unfold lineStage
  split
  · exact h.advance
  · exact (lineStepOp_aligned h).advance

theorem lineStage_seq (s : State) : (lineStage s).seq = s.seq := by
  unfold lineStage
  split
  · rfl
  · exact (lineStepOp_lineFrame s).seq

/-- The line stage takes no event from the latch. -/
theorem lineStage_evPending {s : State} (h : Aligned s) (hev : s.link.evPending = true) :
    (lineStage s).link.evPending = true := by
  obtain ⟨-, hact, fits⟩ := h.of_evPending hev
  unfold lineStage
  split
  · exact hev
  · rw [lineStepOp_nothingLatched fits.waiting hact]
    exact hev

/-- The handler step is enabled only on an event that is still pending (R6 stage 4, R82). -/
theorem handlerStage_aligned {s : State} (h : Consistent s) (hs : s.io.stage = .handler) :
    Aligned (handlerStage s) := by
  unfold handlerStage
  split
  next he =>
    obtain ⟨-, hev, -⟩ := (handlerEnabled_iff s).mp he
    exact (selectedArm_aligned h.aligned (h.early hev (.inr (.inr hs)))).advance
  next => exact h.aligned.advance

/-- Outside the first three stages after the sampling, `EventStillPending` asks nothing. -/
theorem eventStillPending_of_stage {s : State} (h : s.io.stage = .host ∨ s.io.stage = .sample) :
    EventStillPending s := by
  rintro - hs
  rcases h with h | h <;> simp [h] at hs

theorem AccessEffect.stage {s u : State} {i : Instr} (k : AccessEffect s i u) : u.io.stage = s.io.stage := by
  cases k
  case submit => split <;> rfl
  all_goals rfl

/-- Settles O51, stage by stage: sampling notes the event latch, timebase, line and handler steps hand the transfer from
holder to holder, and the host's access begins one only where there is none. -/
theorem stepKeepsConsistent : Obligations.StepKeepsConsistent := by
  intro s t h ht
  rcases step_byStage ht with
    ⟨-, rfl⟩ | ⟨hs, rfl⟩ | ⟨hs, rfl⟩ | ⟨hs, rfl⟩ | ⟨hs, -, rfl⟩ | ⟨hs, w, u, -, k, rfl⟩
  · exact sampleInputs_consistent h
  · obtain ⟨-, hlink, -⟩ := timebaseStage_busEngine s
    refine (timebaseStage_aligned h.aligned).consistent fun hev _ => ?_
    rw [timebaseStage_io] at hev
    rw [hlink]
    exact h.early hev (.inl hs)
  · refine (lineStage_aligned h.aligned).consistent fun hev _ => ?_
    rw [lineStage_io] at hev
    exact lineStage_evPending h.aligned (h.early hev (.inr (.inl hs)))
  · refine (handlerStage_aligned h hs).consistent (eventStillPending_of_stage (.inl ?_))
    rw [handlerStage_io, hs, Stage.after]
  · exact h.aligned.advance.consistent (eventStillPending_of_stage (.inr (by simp [hs, Stage.after])))
  · refine (k.aligned h.aligned).advance.consistent (eventStillPending_of_stage (.inr ?_))
    rw [advance_io_stage, k.stage, hs, Stage.after]

-- The cursor (R12) -------------------------------------------------------------------------------------------------

/-- A sampling leaves the cursor, or is a reset cycle and clears it (R230). -/
theorem sampleInputs_idx (s : State) :
    (sampleInputs s).seq.idx = s.seq.idx ∨ ((sampleInputs s).seq.idx = 0 ∧ (nextStimulus s).rst = true) := by
  cases hr : (nextStimulus s).rst with
  | false => rw [sampleInputs_run hr]; exact .inl rfl
  | true => rw [sampleInputs_reset hr, answerInReset_eq]; exact .inr ⟨rfl, rfl⟩

/-- A handler stage leaves the cursor, or moves it by one for a transfer in flight (R88, R91). -/
theorem handlerStage_idx {s : State} (h : Consistent s) (hs : s.io.stage = .handler) :
    (handlerStage s).seq.idx = s.seq.idx ∨
      ((handlerStage s).seq.idx.toNat = s.seq.idx.toNat + 1 ∧ s.seq.pending = true) := by
  unfold handlerStage
  split
  next he =>
    obtain ⟨-, hev, -⟩ := (handlerEnabled_iff s).mp he
    obtain ⟨r, -⟩ := h.aligned.of_evPending (h.early hev (.inr (.inr hs)))
    rw [advance_seq]
    rcases (selectedArm_cursorStep s).idx with e | ⟨hlt, e⟩ <;> rw [e]
    · exact .inl rfl
    · exact .inr ⟨by bv_omega, r.pending⟩
  next => exact .inl rfl

/-- An access leaves the cursor, or is an accepted `SUBMIT` and clears it (R81). -/
theorem AccessEffect.cursor {s u : State} {i : Instr} (k : AccessEffect s i u) :
    u.seq.idx = s.seq.idx ∨
      (u.seq.idx = 0 ∧ s.seq.pending = false ∧ u.seq.pending = true ∧ u.seq.subAcc = true ∧ i = .cmdSubmit) := by
  cases k
  case submit hi =>
    split
    next ha => exact .inr ⟨rfl, ((submitAccepted_iff s).mp ha).1, rfl, rfl, hi⟩
    next => exact .inl rfl
  all_goals exact .inl rfl

/-- Settles O57: the bound is a clause of `Consistent`, which the step keeps; the four ways are those of the stages. -/
theorem cursorOnlyMovesUp : Obligations.CursorOnlyMovesUp := by
  intro s t h ht
  refine ⟨(stepKeepsConsistent s t h ht).cursor, ?_⟩
  rcases step_byStage ht with
    ⟨hs, rfl⟩ | ⟨-, rfl⟩ | ⟨-, rfl⟩ | ⟨hs, rfl⟩ | ⟨-, -, rfl⟩ | ⟨hs, w, u, hw, k, rfl⟩
  · rcases sampleInputs_idx s with e | ⟨e, hr⟩
    · exact .inl e
    · exact .inr (.inr (.inl ⟨e, hs, hr⟩))
  · obtain ⟨hseq, -⟩ := timebaseStage_busEngine s
    rw [hseq]; exact .inl rfl
  · rw [lineStage_seq]; exact .inl rfl
  · rcases handlerStage_idx h hs with e | ⟨e, hp⟩
    · exact .inl e
    · exact .inr (.inl ⟨e, hs, hp⟩)
  · exact .inl rfl
  · rcases k.cursor with e | ⟨e, hp, hpt, hacc, hi⟩
    · exact .inl e
    · exact .inr (.inr (.inr ⟨e, hs, hp, hpt, hacc, w, hw, hi⟩))

-- Reachable states (R32) -------------------------------------------------------------------------------------------

/-- What holds at reset and is kept by every step holds of every reachable state: here `Consistent`. -/
theorem Reachable.consistent {s : State} (h : Reachable s) : Consistent s := by
  induction h with
  | start s h =>
    obtain ⟨hseq, hlink, hline, -, -, -, hstage⟩ := h
    exact consistent_of_reset hseq hlink hline hstage
  | step s t _ ht ih => exact stepKeepsConsistent s t ih ht

/-- A latched action belongs to a registered transfer, and no event is pending beside it (R32 (b), (g)). -/
theorem Aligned.of_actValid {s : State} (h : Aligned s) (hact : s.link.actValid = true) :
    Registered s ∧ s.link.evPending = false := by
  rcases h.standing with k | ⟨r, holder⟩
  · exact absurd (hact.symm.trans k.actValid) (by decide)
  · cases holder with
    | action hev => exact ⟨r, hev⟩
    | event _ hne => exact absurd (hact.symm.trans hne) (by decide)
    | phase _ hne => exact absurd (hact.symm.trans hne) (by decide)

/-- Settles O55: the clauses are those of `Consistent`, or follow from who holds the transfer. -/
theorem reachableStatesMeetTheLatchInvariants : Obligations.ReachableStatesMeetTheLatchInvariants := by
  intro s hr
  have h := hr.consistent
  have event := fun hev => h.aligned.of_evPending hev
  have action := fun hact => h.aligned.of_actValid hact
  refine ⟨fun hev => ?_, fun hact => ?_, fun hev => ?_, h.registered.symm, h.idle_iff.symm, h.outcome_iff, ?_⟩
  · obtain ⟨-, -, fits⟩ := event hev
    exact fits.waiting
  · obtain ⟨r, hev⟩ := action hact
    exact ⟨hev, r.pending⟩
  · obtain ⟨r, -⟩ := event hev
    exact r.bufValid
  · rintro ⟨hev, hact⟩
    obtain ⟨-, hne⟩ := action hact
    exact absurd (hev.symm.trans hne) (by decide)

-- What each operation can write (R10 to R28, R46) ------------------------------------------------------------------

/-- What operation `i` can make of `s`: each constructor lists the elements it can write, everything else stays. -/
inductive Writes (s : State) : Instr → State → Prop
  /-- A read answers, any other access without effect does nothing (R45, R60, R74). -/
  | port (i : Instr) (r : Option Reg) : Writes s i { s with io := { s.io with rdData := r } }
  /-- `SUBMIT`, accepted or not (R81, R201). -/
  | accept : Writes s .cmdSubmit (acceptTransfer s)
  | reject : Writes s .cmdSubmit { s with seq := { s.seq with subAcc := false } }
  /-- A write of an operand stores it (R64, R65). -/
  | wrTreq (d : Reg) (a : Byte) : Writes s (.wrTreq d) { s with seq := { s.seq with treq := a } }
  | wrTptr (d : Reg) (a : BufAddr) : Writes s (.wrTptr d) { s with seq := { s.seq with tptr := a } }
  | wrTlen (d : Reg) (n : BufLen) : Writes s (.wrTlen d) { s with seq := { s.seq with tlen := n } }
  | wrTcount (d : Reg) (c : Count) : Writes s (.wrTcount d) { s with timer := { s.timer with tcount := c } }
  /-- The timer commands (R143 to R147). -/
  | tStart (c : Count) (r : Bool) : Writes s .cmdTStart { s with timer := { s.timer with count := c, running := r } }
  | tStop (r : Bool) (c : Count) : Writes s .cmdTStop { s with timer := { s.timer with running := r, tcount := c } }
  | ackTick (p : Bool) : Writes s .cmdAckTick { s with timer := { s.timer with tickPending := p } }
  | ackSec (p : Bool) : Writes s .cmdAckSec { s with timer := { s.timer with secPending := p } }
  /-- The handler step and its arms; only `H_READ_BYTE` stores into the buffer space (R84 to R93). -/
  | arm {i : Instr} (hi : IsHandlerOp i) (st : SeqState) (p : Bool) (o f : BusOutcome) (v : Bool) (c : BufLen)
      (ep av : Bool) (ac : BitVec 3) (dr : Byte) (m : Memory)
      (hm : m ≠ s.buffer → i = .handler ∨ i = .hReadByte) :
      Writes s i { s with
        seq := { s.seq with state := st, pending := p, outcome := o, finalOutcome := f, bufValid := v, idx := c }
        link := { s.link with evPending := ep, actValid := av, actCode := ac, dreg := dr }
        buffer := m }
  /-- The line step (R130). -/
  | lineStep (l : LineEngine) (k : Latches) : Writes s .lineStep { s with line := l, link := k }
  /-- A line action taken from the latch (R114, R115). -/
  | action {i : Instr} (hi : IsLineOp i) (l : LineEngine) (av : Bool) :
      Writes s i { s with line := l, link := { s.link with actValid := av } }
  /-- The periodic steps of timer and buttons (R140 to R142, R160 to R163). -/
  | tbStep (c : Count) (d : Nat) (tp sp : Bool) (a b : PressCounter) :
      Writes s .tbStep { s with
        timer := { s.timer with count := c, tdiv := d, tickPending := tp, secPending := sp }, bAdd := a, bSet := b }
  | tick (tp : Bool) (a b : PressCounter) :
      Writes s .tick { s with timer := { s.timer with tickPending := tp }, bAdd := a, bSet := b }
  | secStep (c : Count) (sp : Bool) :
      Writes s .secStep { s with timer := { s.timer with count := c, secPending := sp } }
  | sampleAdd {i : Instr} (hi : i = .bSamplePressed .add ∨ i = .bSampleReleased .add) (c : PressCounter) :
      Writes s i { s with bAdd := c }
  | sampleSet {i : Instr} (hi : i = .bSamplePressed .set ∨ i = .bSampleReleased .set) (c : PressCounter) :
      Writes s i { s with bSet := c }

theorem runArm_writes {s : State} {a : Arm} {i : Instr} (hi : IsHandlerOp i)
    (hr : a = .readByte → i = .handler ∨ i = .hReadByte) : Writes s i (runArm a s) := by
  have noStore : s.buffer ≠ s.buffer → i = .handler ∨ i = .hReadByte := absurd rfl
  cases a
  case readByte =>
    rcases readByteArm_cases s with ⟨-, -, e⟩ | ⟨-, -, e⟩ | ⟨-, e⟩ <;> rw [runArm, e]
    · exact .arm hi _ _ _ _ _ _ _ _ _ _ _ fun _ => hr rfl
    · exact .arm hi _ _ _ _ _ _ _ _ _ _ _ fun _ => hr rfl
    · exact .arm hi _ _ _ _ _ _ _ _ _ _ _ noStore
  all_goals exact .arm hi _ _ _ _ _ _ _ _ _ _ _ noStore

/-- An arm run as an operation of its own (R93). -/
theorem execArm_writes (a : Arm) (s : State) : ∃ t, exec a.instr s = .next t ∧ Writes s a.instr t := by
  have e : exec a.instr s = .next (runArm a s) := by cases a <;> rfl
  exact ⟨_, e, runArm_writes (.inr ⟨a, rfl⟩) (by rintro rfl; exact .inr rfl)⟩

/-- Only the line engine and `act_valid` can differ. -/
def ActionFrame (s t : State) : Prop := ∃ l av, t = { s with line := l, link := { s.link with actValid := av } }

theorem takeAction_actionFrame {f g : State → State} (hf : ∀ s, ActionFrame s (f s)) (hg : ∀ s, ActionFrame s (g s))
    (s : State) : ActionFrame s (takeAction f g s) := by
  unfold takeAction
  split
  case h_1 =>
    obtain ⟨l, av, e⟩ := hf (takeLatched s)
    exact ⟨l, av, e⟩
  case h_2 =>
    obtain ⟨l, av, e⟩ := hg { takeLatched s with line := { s.line with qcnt := 0 } }
    exact ⟨l, av, e⟩
  all_goals exact ⟨s.line, s.link.actValid, rfl⟩

theorem runAction_actionFrame (a : BitVec 3) (s : State) : ActionFrame s (runAction a s) := by
  have drop : ∀ s, ActionFrame s (dropped s) := fun s => ⟨s.line, s.link.actValid, rfl⟩
  have line : ∀ (F : State → LineEngine) (s : State), ActionFrame s { s with line := F s } :=
    fun F s => ⟨F s, s.link.actValid, rfl⟩
  rcases runAction_cases a s with ⟨-, e⟩ | ⟨-, e⟩ | ⟨-, e⟩ | ⟨-, e⟩ | ⟨-, e⟩ | ⟨-, e⟩ | ⟨-, e⟩ <;> rw [e]
  · exact takeAction_actionFrame (line _) drop s
  · exact takeAction_actionFrame drop (line _) s
  · exact takeAction_actionFrame drop (line _) s
  · exact takeAction_actionFrame drop (line _) s
  · exact takeAction_actionFrame drop (line _) s
  · exact takeAction_actionFrame drop (line _) s
  · exact takeAction_actionFrame drop drop s

theorem runAction_writes {i : Instr} (hi : IsLineOp i) (a : BitVec 3) (s : State) : Writes s i (runAction a s) := by
  obtain ⟨l, av, e⟩ := runAction_actionFrame a s
  rw [e]
  exact .action hi l av

/-- Each action of the table is the one its code names (R71). -/
theorem execAction_writes (a : BitVec 3) (s : State) :
    ∃ t, exec (decodeAction a) s = .next t ∧ Writes s (decodeAction a) t := by
  have code : ∀ a : BitVec 3, a = 0 ∨ a = 1 ∨ a = 2 ∨ a = 3 ∨ a = 4 ∨ a = 5 ∨ a = 6 ∨ a = 7 := by decide
  have e : exec (decodeAction a) s = .next (runAction a s) := by
    rcases code a with rfl | rfl | rfl | rfl | rfl | rfl | rfl | rfl <;> rfl
  have hi : IsLineOp (decodeAction a) := by
    rcases code a with rfl | rfl | rfl | rfl | rfl | rfl | rfl | rfl <;> exact .inr (by decide)
  exact ⟨_, e, runAction_writes hi a s⟩

theorem LineFrame.eq {s t : State} (f : LineFrame s t) : t = { s with line := t.line, link := t.link } := by
  obtain ⟨hseq, htimer, hadd, hset, hbuffer, hio, hpar⟩ := f
  rw [← hseq, ← htimer, ← hadd, ← hset, ← hbuffer, ← hio, ← hpar]

theorem tbStepOp_writes (s : State) : Writes s .tbStep (tbStepOp s) := by
  obtain ⟨c, p, e⟩ := secStepOp_frame (tickDivide s)
  rw [tbStepOp, e]
  unfold tickDivide
  split
  · rw [tickOp_eq]; exact .tbStep ..
  · exact .tbStep ..

/-- Every operation of the table answers a next state, in which only what it can write differs. -/
theorem exec_writes (i : Instr) (s : State) : ∃ t, exec i s = .next t ∧ Writes s i t := by
  cases i
  case cmdSubmit =>
    refine ⟨_, rfl, ?_⟩
    split
    · exact .accept
    · exact .reject
  case cmdTStart => exact ⟨_, rfl, .tStart ..⟩
  case cmdTStop => exact ⟨_, rfl, .tStop ..⟩
  case cmdAckTick => exact ⟨_, rfl, .ackTick _⟩
  case cmdAckSec => exact ⟨_, rfl, .ackSec _⟩
  case wrTreq d => exact ⟨_, rfl, .wrTreq d _⟩
  case wrTptr d => exact ⟨_, rfl, .wrTptr d _⟩
  case wrTlen d => exact ⟨_, rfl, .wrTlen d _⟩
  case wrTcount d => exact ⟨_, rfl, .wrTcount d _⟩
  case hSpurious e => exact execArm_writes (.spurious e) s
  case hFaultEvArbLost => exact execArm_writes .faultArbLost s
  case hFaultEvBusError => exact execArm_writes .faultBusError s
  case hNackEvAddrNack => exact execArm_writes .nackAddr s
  case hNackEvDataNack => exact execArm_writes .nackData s
  case hStopDone => exact execArm_writes .stopDone s
  case hWriteNextEvAddrAck => exact execArm_writes .writeNextAddrAck s
  case hWriteNextEvDataAck => exact execArm_writes .writeNextDataAck s
  case hWriteDoneEvAddrAck => exact execArm_writes .writeDoneAddrAck s
  case hWriteDoneEvDataAck => exact execArm_writes .writeDoneDataAck s
  case hReadFirst => exact execArm_writes .readFirst s
  case hReadByte => exact execArm_writes .readByte s
  case hIgnored e => exact execArm_writes (.ignored e) s
  case aStartAddr => exact execAction_writes actStartAddr s
  case aSend => exact execAction_writes actSend s
  case aRecv => exact execAction_writes actRecv s
  case aAckRecv => exact execAction_writes actAckRecv s
  case aNackStop => exact execAction_writes actNackStop s
  case aStop => exact execAction_writes actStop s
  case aNone => exact execAction_writes actNone s
  case aReserved7 => exact execAction_writes actReserved7 s
  case lineStep => exact ⟨_, rfl, (lineStepOp_lineFrame s).eq ▸ .lineStep _ _⟩
  case tbStep => exact ⟨_, rfl, tbStepOp_writes s⟩
  case tick => exact ⟨_, rfl, tickOp_eq s ▸ .tick ..⟩
  case secStep =>
    obtain ⟨c, p, e⟩ := secStepOp_frame s
    exact ⟨_, rfl, e ▸ .secStep c p⟩
  case bSamplePressed b =>
    cases b
    · exact ⟨_, rfl, .sampleAdd (.inl rfl) _⟩
    · exact ⟨_, rfl, .sampleSet (.inl rfl) _⟩
  case bSampleReleased b =>
    cases b
    · exact ⟨_, rfl, .sampleAdd (.inr rfl) _⟩
    · exact ⟨_, rfl, .sampleSet (.inr rfl) _⟩
  case handler => exact ⟨_, rfl, runArm_writes (.inl rfl) fun _ => .inl rfl⟩
  all_goals exact ⟨_, rfl, .port _ _⟩

theorem Writes.of_exec {i : Instr} {s t : State} (h : exec i s = .next t) : Writes s i t := by
  obtain ⟨u, hu, k⟩ := exec_writes i s
  exact Host.Outcome.next.inj (hu.symm.trans h) ▸ k

/-- Settles O47, element by element. -/
theorem sequencerElementsHaveTheirWriters : Obligations.SequencerElementsHaveTheirWriters := by
  intro i s t h
  have k := Writes.of_exec h
  clear h
  refine ⟨?request, ?transfer, ?final, ?treq, ?tptr, ?tlen⟩
  case request =>
    cases k
    case accept => exact fun _ => rfl
    case reject => exact fun _ => rfl
    all_goals exact absurd rfl
  case transfer =>
    cases k
    case accept => exact fun _ => .inl rfl
    case arm hi _ => exact fun _ => .inr hi
    all_goals exact absurd rfl
  case final =>
    cases k
    case arm hi _ => exact fun _ => hi
    all_goals exact absurd rfl
  case treq =>
    cases k
    case wrTreq d a => exact fun _ => ⟨d, rfl⟩
    all_goals exact absurd rfl
  case tptr =>
    cases k
    case wrTptr d a => exact fun _ => ⟨d, rfl⟩
    all_goals exact absurd rfl
  case tlen =>
    cases k
    case wrTlen d n => exact fun _ => ⟨d, rfl⟩
    all_goals exact absurd rfl

/-- The writers of the latches and of the line engine (R13, R16 to R19). -/
theorem Writes.busEngine {i : Instr} {s t : State} (k : Writes s i t) :
    (t.link ≠ s.link → i = .cmdSubmit ∨ IsHandlerOp i ∨ IsLineOp i) ∧
    (t.link.evCode ≠ s.link.evCode → i = .lineStep) ∧ (t.line ≠ s.line → IsLineOp i) := by
  cases k
  case accept => exact ⟨fun _ => .inl rfl, absurd rfl, absurd rfl⟩
  case arm hi _ => exact ⟨fun _ => .inr (.inl hi), absurd rfl, absurd rfl⟩
  case lineStep => exact ⟨fun _ => .inr (.inr (.inl rfl)), fun _ => rfl, fun _ => .inl rfl⟩
  case action hi => exact ⟨fun _ => .inr (.inr hi), absurd rfl, fun _ => hi⟩
  all_goals exact ⟨absurd rfl, absurd rfl, absurd rfl⟩

/-- The writers of the counters' values and of the divider (R21, R22, R24). -/
theorem Writes.counters {i : Instr} {s t : State} (k : Writes s i t) :
    (t.timer.count ≠ s.timer.count → i = .tbStep ∨ i = .secStep ∨ i = .cmdTStart) ∧
    (t.timer.tdiv ≠ s.timer.tdiv → i = .tbStep) ∧
    (t.timer.tcount ≠ s.timer.tcount → i = .cmdTStop ∨ ∃ d, i = .wrTcount d) := by
  cases k
  case wrTcount d _ => exact ⟨absurd rfl, absurd rfl, fun _ => .inr ⟨d, rfl⟩⟩
  case tStart => exact ⟨fun _ => .inr (.inr rfl), absurd rfl, absurd rfl⟩
  case tStop => exact ⟨absurd rfl, absurd rfl, fun _ => .inl rfl⟩
  case tbStep => exact ⟨fun _ => .inl rfl, fun _ => rfl, absurd rfl⟩
  case secStep => exact ⟨fun _ => .inr (.inl rfl), absurd rfl, absurd rfl⟩
  all_goals exact ⟨absurd rfl, absurd rfl, absurd rfl⟩

/-- The writers of `running` and of the two requests (R21, R23). -/
theorem Writes.requests {i : Instr} {s t : State} (k : Writes s i t) :
    (t.timer.running ≠ s.timer.running → i = .cmdTStart ∨ i = .cmdTStop) ∧
    (t.timer.tickPending ≠ s.timer.tickPending → i = .tbStep ∨ i = .tick ∨ i = .cmdAckTick) ∧
    (t.timer.secPending ≠ s.timer.secPending → i = .tbStep ∨ i = .secStep ∨ i = .cmdAckSec) := by
  cases k
  case tStart => exact ⟨fun _ => .inl rfl, absurd rfl, absurd rfl⟩
  case tStop => exact ⟨fun _ => .inr rfl, absurd rfl, absurd rfl⟩
  case ackTick => exact ⟨absurd rfl, fun _ => .inr (.inr rfl), absurd rfl⟩
  case ackSec => exact ⟨absurd rfl, absurd rfl, fun _ => .inr (.inr rfl)⟩
  case tbStep => exact ⟨absurd rfl, fun _ => .inl rfl, fun _ => .inl rfl⟩
  case tick => exact ⟨absurd rfl, fun _ => .inr (.inl rfl), absurd rfl⟩
  case secStep => exact ⟨absurd rfl, absurd rfl, fun _ => .inr (.inl rfl)⟩
  all_goals exact ⟨absurd rfl, absurd rfl, absurd rfl⟩

/-- The writers of the press counters, each its own button's (R25, R26). -/
theorem Writes.buttons {i : Instr} {s t : State} (k : Writes s i t) :
    (t.bAdd ≠ s.bAdd → i = .tbStep ∨ i = .tick ∨ i = .bSamplePressed .add ∨ i = .bSampleReleased .add) ∧
    (t.bSet ≠ s.bSet → i = .tbStep ∨ i = .tick ∨ i = .bSamplePressed .set ∨ i = .bSampleReleased .set) := by
  cases k
  case tbStep => exact ⟨fun _ => .inl rfl, fun _ => .inl rfl⟩
  case tick => exact ⟨fun _ => .inr (.inl rfl), fun _ => .inr (.inl rfl)⟩
  case sampleAdd hi => exact ⟨fun _ => .inr (.inr hi), absurd rfl⟩
  case sampleSet hi => exact ⟨absurd rfl, fun _ => .inr (.inr hi)⟩
  all_goals exact ⟨absurd rfl, absurd rfl⟩

/-- The writers of the buffer space (R46). -/
theorem Writes.buffer {i : Instr} {s t : State} (k : Writes s i t) :
    t.buffer ≠ s.buffer → i = .handler ∨ i = .hReadByte := by
  cases k
  case arm hm => exact hm
  all_goals exact absurd rfl

/-- No operation writes the parameters, and of the cycle none writes more than the answer of the port (R3, R60). -/
theorem Writes.par_io {i : Instr} {s t : State} (k : Writes s i t) :
    t.par = s.par ∧ t.io = { s.io with rdData := t.io.rdData } := by
  cases k <;> exact ⟨rfl, rfl⟩

/-- Settles O48, unit by unit. -/
theorem otherElementsHaveTheirWriters : Obligations.OtherElementsHaveTheirWriters := by
  intro i s t h
  have k := Writes.of_exec h
  obtain ⟨hlink, hcode, hline⟩ := k.busEngine
  obtain ⟨hcount, htdiv, htcount⟩ := k.counters
  obtain ⟨hrunning, htick, hsec⟩ := k.requests
  obtain ⟨hadd, hset⟩ := k.buttons
  exact ⟨hlink, hcode, hline, hcount, hrunning, htdiv, htick, hsec, htcount, hadd, hset, k.buffer, k.par_io⟩

-- Submission (R67, R81) --------------------------------------------------------------------------------------------

/-- The address byte is address and direction side by side (R67). -/
theorem addressByte_toNat (treq : Byte) : (addressByte treq).toNat = (treq.toNat % 128) * 2 + treq.toNat / 128 := by
  have h := treq.isLt
  simp only [addressByte, BitVec.toNat_append, BitVec.extractLsb'_toNat, Nat.shiftRight_eq_div_pow]
  rw [← Nat.shiftLeft_add_eq_or_of_lt (by omega)]
  omega

theorem requestDir_eq (treq : Byte) : requestDir treq = decide (128 ≤ treq.toNat) := by
  have h := treq.isLt
  rw [requestDir, BitVec.getLsbD, Nat.testBit_eq_decide_div_mod_eq, decide_eq_decide]
  omega

/-- Settles O19. -/
theorem acceptedSubmitRegistersTheTransfer : Obligations.AcceptedSubmitRegistersTheTransfer := by
  intro s hp hph hb hsda hscl
  have ha : submitAccepted s = true := (submitAccepted_iff s).mpr ⟨hp, hph, hb, hsda, hscl⟩
  refine ⟨addressByte s.seq.treq, addressByte_toNat _, ?_⟩
  rw [← requestDir_eq]
  exact congrArg Host.Outcome.next (if_pos ha)

-- The tick divider (R141) ------------------------------------------------------------------------------------------

theorem tbStepOp_par (s : State) : (tbStepOp s).par = s.par := by
  obtain ⟨tm, a, b, e⟩ := tbStepOp_frame s
  rw [e]

/-- A timebase step raises the tick where the divider is at its top, and takes none back. -/
theorem tbStepOp_tickPending (s : State) : (tbStepOp s).timer.tickPending =
    if s.timer.tdiv = s.par.tickDiv - 1 then true else s.timer.tickPending := by
  obtain ⟨c, p, e⟩ := secStepOp_frame (tickDivide s)
  rw [tbStepOp, e, tickDivide_timer]
  split <;> rfl

/-- The law of the tick from any value of the divider below its bound (R141). -/
theorem execTimes_tbStep_tick (n : Nat) {s : State} (h : s.timer.tdiv < s.par.tickDiv) :
    ∃ t : State, execTimes n .tbStep s = .next t ∧ t.timer.tdiv = (s.timer.tdiv + n) % s.par.tickDiv ∧
      (t.timer.tickPending = true ↔ s.timer.tickPending = true ∨ s.par.tickDiv ≤ s.timer.tdiv + n) := by
  induction n generalizing s with
  | zero => exact ⟨s, rfl, (Nat.mod_eq_of_lt h).symm, by simp [Nat.not_le.mpr h]⟩
  | succ n ih =>
    have htdiv := tbStepOp_tdiv s
    have htick := tbStepOp_tickPending s
    have hpar := tbStepOp_par s
    by_cases top : s.timer.tdiv = s.par.tickDiv - 1
    · rw [if_pos top] at htdiv htick
      obtain ⟨t, run, ht, hp⟩ := ih (s := tbStepOp s) (by rw [htdiv, hpar]; omega)
      rw [htdiv, hpar] at ht hp
      have wrap : s.timer.tdiv + (n + 1) = 0 + n + s.par.tickDiv := by omega
      refine ⟨t, run, by rw [ht, wrap, Nat.add_mod_right], ?_⟩
      rw [hp, htick, wrap]
      simp
    · rw [if_neg top] at htdiv htick
      obtain ⟨t, run, ht, hp⟩ := ih (s := tbStepOp s) (by rw [htdiv, hpar]; omega)
      rw [htdiv, hpar, Nat.add_right_comm] at ht hp
      exact ⟨t, run, ht, by rw [hp, htick]; rfl⟩

/-- Settles O25, as the law of the divider from 0. -/
theorem tickFallsEveryTickDivSteps : Obligations.TickFallsEveryTickDivSteps := by
  intro s n hz hd
  have h := execTimes_tbStep_tick n (s := s) (by omega)
  rwa [hz, Nat.zero_add] at h

-- The reset cycle (R230, R231) -------------------------------------------------------------------------------------

/-- STATUS of a block at reset: bit 1 is the bus idle, the rest 0 (R63). -/
theorem statusWord_of_reset {s : State} (hseq : s.seq = Sequencer.reset) (hlink : s.link = Latches.reset) :
    statusWord s = if busIdle s then 2 else 0 := by
  rw [statusWord, hseq, hlink]
  cases busIdle s <;> decide

/-- The bits of BTN: the two lines normalised to "pressed", no more (R66). -/
theorem btnWord_bits (s : State) : ((btnWord s).getLsbD 0 = true ↔ pressed .add s = true) ∧
    ((btnWord s).getLsbD 1 = true ↔ pressed .set s = true) ∧ (btnWord s).extractLsb' 2 14 = 0 := by
  unfold btnWord
  cases pressed .add s <;> cases pressed .set s <;> decide

/-- Every register but STATUS and BTN reads 0 in a block at reset. -/
theorem regValue_of_reset {s : State} {idx : BitVec 4} (hseq : s.seq = Sequencer.reset) (htimer : s.timer = Timer.reset)
    (hadd : s.bAdd = PressCounter.reset) (hset : s.bSet = PressCounter.reset) (h1 : idx ≠ 1) (h12 : idx ≠ 12) :
    regValue idx s = 0 := by
  have fit0 (w : Nat) : fit w 0 = 0 := fit_of_lt (Nat.two_pow_pos w)
  unfold regValue
  split
  case h_2 h => exact absurd (BitVec.eq_of_toNat_eq h) h1
  case h_13 h => exact absurd (BitVec.eq_of_toNat_eq h) h12
  case h_3 => rw [hseq]; rfl
  case h_4 => rw [hseq]; exact fit0 _
  case h_5 => rw [hseq]; exact fit0 _
  case h_6 => rw [hseq]; exact fit0 _
  case h_7 => rw [htimer]; exact fit0 _
  case h_8 => simp only [tstatWord, irqTick, irqSecond, htimer]; decide
  case h_9 => rw [htimer]; exact fit0 _
  case h_10 => rw [bevWord, hadd, hset]; decide
  case h_11 => rw [hadd]; decide
  case h_12 => rw [hset]; decide
  all_goals rfl

/-- The bus is idle in a reset cycle where both wires are high: the line engine no longer holds it busy (R20). -/
theorem busIdle_of_reset {s : State} (hline : s.line = LineEngine.reset) : busIdle s = (s.io.sdaIn && s.io.sclIn) := by
  simp [busIdle, hline, LineEngine.reset]

/-- In a reset cycle only a read is answered (R230). -/
theorem answerInReset_ignored {s : State} (h : ∀ w, s.io.cur.access = some w → accessIsWrite w = true) :
    answerInReset s = s := by
  unfold answerInReset
  split
  next => rfl
  next w hw => exact if_pos (h w hw)

theorem answerInReset_read {s : State} {w : AccessWord} (hw : s.io.cur.access = some w)
    (hr : accessIsWrite w = false) : answerInReset s = answer (regValue (accessIdx w) s) s := by
  unfold answerInReset
  rw [hw]
  exact if_neg (by simp [hr])

/-- The state of a reset cycle before the port answers. -/
def resetCycle (s : State) : State := resetBlock (sampleAs (nextStimulus s) s)

theorem statusWord_resetCycle (s : State) : statusWord (resetCycle s) =
    if s.line.sdaO && (nextStimulus s).extSda && s.line.sclO && (nextStimulus s).extScl then 2 else 0 := by
  have idle : busIdle (resetCycle s) =
      (s.line.sdaO && (nextStimulus s).extSda && (s.line.sclO && (nextStimulus s).extScl)) :=
    busIdle_of_reset (s := resetCycle s) rfl
  rw [statusWord_of_reset rfl rfl, idle, Bool.and_assoc, Bool.and_assoc, Bool.and_assoc]

theorem btnWord_resetCycle (s : State) :
    ((btnWord (resetCycle s)).getLsbD 0 = true ↔ (nextStimulus s).btnAdd = s.par.activeLevelAdd) ∧
    ((btnWord (resetCycle s)).getLsbD 1 = true ↔ (nextStimulus s).btnSet = s.par.activeLevelSet) ∧
    (btnWord (resetCycle s)).extractLsb' 2 14 = 0 := by
  obtain ⟨hadd, hset, hrest⟩ := btnWord_bits (resetCycle s)
  exact ⟨hadd.trans beq_iff_eq, hset.trans beq_iff_eq, hrest⟩

/-- Settles O10: the elements are those of `resetBlock`; the port answers from them under this cycle's lines. -/
theorem resetCycleSetsEveryElement : Obligations.ResetCycleSetsEveryElement := by
  intro s hs hr
  have hstep : step s = .next (answerInReset (resetCycle s)) := by
    rw [step_sample hs, sampleInputs_reset hr, resetCycle]
  have elements := answerInReset_eq (resetCycle s)
  refine ⟨answerInReset (resetCycle s), hstep, ?_, ?_, ?_, ?_, ?_, ?_, ?_, ?_, ?_, ?_, fun a => ?_, fun hn => ?_,
    fun w hw hwr => ?_, fun w hw hrd => ?_⟩
  case refine_11 => rw [elements]; exact memRead_hostStores a _ _
  case refine_12 =>
    have hn' : (resetCycle s).io.cur.access = none := hn
    rw [answerInReset_ignored (by simp [hn'])]
    rfl
  case refine_13 =>
    have hw' : (resetCycle s).io.cur.access = some w := hw
    rw [answerInReset_ignored fun v hv => by cases hw'.symm.trans hv; exact hwr]
    rfl
  case refine_14 =>
    refine ⟨regValue (accessIdx w) (resetCycle s), ?_, fun h1 => ?_, fun h12 => ?_, fun h1 h12 => ?_⟩
    · rw [answerInReset_read hw hrd, answer_io_rdData]
    · rw [show accessIdx w = 1 from h1]
      exact statusWord_resetCycle s
    · rw [show accessIdx w = 12 from h12]
      exact btnWord_resetCycle s
    · exact regValue_of_reset rfl rfl rfl rfl h1 h12
  all_goals rw [elements]; rfl

-- The reset state (R31) --------------------------------------------------------------------------------------------

/-- Settles O9, unit by unit. -/
theorem resetStateIsTheTable : Obligations.ResetStateIsTheTable := by
  refine ⟨?sequencer, ?latches, ?line, ?timer, ?buttons⟩
  case sequencer => decide
  case latches => decide
  case line => decide
  case timer => decide
  case buttons => decide

/-- R3's values are in R3's ranges, whatever the open ones are. -/
theorem config_params_legal : Config.params.legal = true := by
  simp [Params.legal, Config.params]

/-- Settles O50: the state after reset is one a reset of the block leaves. -/
theorem resetMeetsTheInvariants : Obligations.ResetMeetsTheInvariants := by
  refine ⟨consistent_of_reset rfl rfl rfl rfl, ?_, ?_, config_params_legal, reset_buffer_wf⟩
  · exact ⟨rfl, fun b hb => Option.some.inj hb⟩
  · exact (countersInRange_iff _).mpr (resetBlock_unitsInRange (.of_legal config_params_legal) State.reset)

end Sys2Proof.Machine

/-! Proofs of the family 20_memory: the canonical form of the buffer space, the one byte an operation can store, and the
operand registers. -/

namespace Sys2Proof.Machine

-- The canonical form (R42, R46) ------------------------------------------------------------------------------------

theorem peek_cons_same (a : Nat) (b : Byte) (m : Memory) : Memory.peek ((a, b) :: m) a = some b := if_pos rfl

theorem peek_cons_other {a k : Nat} (b : Byte) (m : Memory) (h : a ≠ k) :
    Memory.peek ((a, b) :: m) k = Memory.peek m k := if_neg h

/-- Behind its first entry a canonical list is canonical above that entry's address. -/
theorem wfFrom_tail {lo a : Nat} {b : Byte} {m : Memory} (h : Memory.wfFrom lo ((a, b) :: m) = true) :
    Memory.wfFrom (a + 1) m = true := (Bool.and_eq_true_iff.mp h).2

/-- The first entry of a canonical list has the least address listed. -/
theorem head_le_of_peek {lo a k : Nat} {b v : Byte} {m : Memory} (h : Memory.wfFrom lo ((a, b) :: m) = true)
    (hk : Memory.peek ((a, b) :: m) k = some v) : a ≤ k := by
  by_contra hlt
  have none_below : Memory.peek m k = none := peek_below (wfFrom_tail h) (by omega)
  rw [peek_cons_other b m (by omega), none_below] at hk
  cases hk

/-- Canonical lists whose first entries agree hold the same bytes behind them if they hold the same bytes. -/
theorem peek_tail_eq {lo lo' a : Nat} {b b' : Byte} {m n : Memory} (hm : Memory.wfFrom lo ((a, b) :: m) = true)
    (hn : Memory.wfFrom lo' ((a, b') :: n) = true)
    (h : ∀ k, Memory.peek ((a, b) :: m) k = Memory.peek ((a, b') :: n) k) (k : Nat) :
    Memory.peek m k = Memory.peek n k := by
  rcases Nat.lt_or_ge a k with hlt | hle
  · simpa [Memory.peek, hlt.ne] using h k
  · rw [peek_below (wfFrom_tail hm) (by omega), peek_below (wfFrom_tail hn) (by omega)]

/-- Canonical lists that hold the same bytes are the same list: the least address of one is that of the other. -/
theorem eq_of_peek_eq {lo lo' : Nat} {m n : Memory} (hm : Memory.wfFrom lo m = true) (hn : Memory.wfFrom lo' n = true)
    (h : ∀ k, Memory.peek m k = Memory.peek n k) : m = n := by
  induction m generalizing lo lo' n with
  | nil =>
    cases n with
    | nil => rfl
    | cons d n => exact absurd ((h d.1).trans (peek_cons_same ..)) (by simp [Memory.peek])
  | cons c m ih =>
    obtain ⟨a, b⟩ := c
    have ha : Memory.peek n a = some b := (h a).symm.trans (peek_cons_same ..)
    cases n with
    | nil => cases ha
    | cons d n =>
      obtain ⟨a', b'⟩ := d
      have ha' : Memory.peek ((a, b) :: m) a' = some b' := (h a').trans (peek_cons_same ..)
      obtain rfl : a = a' := le_antisymm (head_le_of_peek hm ha') (head_le_of_peek hn ha)
      obtain rfl : b' = b := Option.some.inj ((peek_cons_same ..).symm.trans ha)
      rw [ih (wfFrom_tail hm) (wfFrom_tail hn) (peek_tail_eq hm hn h)]

-- The byte at the cursor (R46, R47) --------------------------------------------------------------------------------

/-- The buffer space stays, or `dreg` is stored at the cursor while a slot remains (R91). -/
def BufferStep (s t : State) : Prop :=
  t.buffer = s.buffer ∨
    (s.seq.idx < s.seq.length ∧ t.buffer = memWrite (bufferAddress s) s.link.dreg s.buffer)

theorem runArm_bufferStep (a : Arm) (s : State) : BufferStep s (runArm a s) := by
  cases a
  case readByte =>
    rcases readByteArm_cases s with ⟨hlt, -, e⟩ | ⟨hlt, -, e⟩ | ⟨-, e⟩ <;> rw [runArm, e]
    · exact .inr ⟨hlt, rfl⟩
    · exact .inr ⟨hlt, rfl⟩
    · exact .inl rfl
  all_goals exact .inl rfl

/-- Of all operations only those that run an arm touch the buffer space (R46, R93). -/
theorem exec_bufferStep {i : Instr} {s t : State} (h : exec i s = .next t) : BufferStep s t := by
  by_cases same : t.buffer = s.buffer
  · exact .inl same
  · rcases (Writes.of_exec h).buffer same with rfl | rfl <;> rw [← Host.Outcome.next.inj h]
    · exact runArm_bufferStep _ s
    · exact runArm_bufferStep .readByte s

theorem BufferStep.wf {s t : State} (k : BufferStep s t) (h : Memory.wf s.buffer = true) :
    Memory.wf t.buffer = true := by
  rcases k with e | ⟨-, e⟩ <;> rw [e]
  · exact h
  · exact memWrite_wf h _ _

/-- Stage (1) applies the host's own stores, in a reset cycle too (R42, R231). -/
theorem sampleInputs_buffer (s : State) :
    (sampleInputs s).buffer = hostStores (nextStimulus s).bufWrites s.buffer := by
  cases hr : (nextStimulus s).rst with
  | false => rw [sampleInputs_run hr]; rfl
  | true => rw [sampleInputs_reset hr, answerInReset_eq]; rfl

/-- Settles O54: a step applies the host's stores or at most one of the block's, and each keeps the form; two canonical
lists with the same contents are equal by induction on them. -/
theorem stepKeepsBufferCanonical : Obligations.StepKeepsBufferCanonical := by
  refine ⟨fun s t hwf ht => ?_, fun m n hm hn h => eq_of_peek_eq hm hn h⟩
  rcases step_cases ht with ⟨-, rfl⟩ | ⟨-, -, rfl⟩ | ⟨-, i, u, -, hu, rfl⟩
  · rw [sampleInputs_buffer]
    exact hostStores_wf _ hwf
  · exact hwf
  · exact (exec_bufferStep hu).wf hwf

/-- Settles O49: the byte that differs is the one `BufferStep` stores. -/
theorem onlyTheByteAtTheCursorIsStored : Obligations.OnlyTheByteAtTheCursorIsStored := by
  intro i s t a h changed
  rcases exec_bufferStep h with e | ⟨hlt, e⟩ <;> rw [e] at changed ⊢
  · exact absurd rfl changed
  · have ha : a = bufferAddress s := by
      by_contra other
      exact changed (memRead_memWrite_other _ _ other)
    subst ha
    exact ⟨bufferAddress_toNat s, hlt, memRead_memWrite_same _ _ _⟩

/-- A cursor below the length does not wrap when it moves (R12). -/
theorem toNat_succ_of_lt {i n : BufLen} (h : i < n) : (i + 1).toNat = i.toNat + 1 := by bv_omega

/-- The whole of `H_WRITE_NEXT` (R88). -/
theorem writeNextArm_eq (s : State) : writeNextArm s = { s with
    seq := { s.seq with idx := s.seq.idx + 1, state := .writing }
    link := { s.link with
      evPending := false, dreg := memRead (bufferAddress s) s.buffer, actCode := actSend, actValid := true } } := rfl

/-- Settles O31: both rows run the one arm. -/
theorem writeNextSendsTheByteAtTheCursor : Obligations.WriteNextSendsTheByteAtTheCursor := by
  intro s i hi
  have run : exec i s = .next (writeNextArm s) := by
    simp only [List.mem_cons, List.not_mem_nil, or_false] at hi
    rcases hi with rfl | rfl <;> rfl
  refine ⟨bufferAddress s, s.seq.idx + 1, bufferAddress_toNat s, fun h => toNat_succ_of_lt h, ?_⟩
  rw [run, writeNextArm_eq]

/-- Settles O32, by the three ways of `H_READ_BYTE`: a slot that is not the last, the last one, and none. -/
theorem readByteStoresAndDecides : Obligations.ReadByteStoresAndDecides := by
  intro s
  have moved (hlt : s.seq.idx < s.seq.length) : (s.seq.idx + 1).toNat =
      s.seq.idx.toNat + (if s.seq.idx.toNat < s.seq.length.toNat then 1 else 0) := by
    rw [if_pos (BitVec.lt_def.mp hlt), toNat_succ_of_lt hlt]
  have stored (hlt : s.seq.idx < s.seq.length) (k : BufAddr) :
      memRead k (memWrite (bufferAddress s) s.link.dreg s.buffer) =
        if s.seq.idx.toNat < s.seq.length.toNat ∧ k = bufferAddress s then s.link.dreg else memRead k s.buffer := by
    simp only [memRead_memWrite, BitVec.lt_def.mp hlt, true_and]
  rcases readByteArm_cases s with ⟨hlt, hmore, e⟩ | ⟨hlt, hlast, e⟩ | ⟨hnone, e⟩
  · exact ⟨_, _, bufferAddress_toNat s, congrArg Host.Outcome.next e, moved hlt, stored hlt,
      fun _ => ⟨rfl, rfl⟩, fun h => absurd hmore h, rfl, rfl, rfl, rfl, rfl, rfl⟩
  · exact ⟨_, _, bufferAddress_toNat s, congrArg Host.Outcome.next e, moved hlt, stored hlt,
      fun h => absurd h hlast, fun _ => ⟨rfl, rfl⟩, rfl, rfl, rfl, rfl, rfl, rfl⟩
  · exact ⟨_, _, bufferAddress_toNat s, congrArg Host.Outcome.next e, (Nat.add_eq_left.mpr (if_neg hnone)).symm,
      fun k => (if_neg fun h => hnone h.1).symm,
      fun h => absurd h hnone, fun _ => ⟨rfl, rfl⟩, rfl, rfl, rfl, rfl, rfl, rfl⟩

-- The operand registers (R64, R65) ---------------------------------------------------------------------------------

theorem byteWord_toNat (b : Byte) : (byteWord b).toNat = b.toNat := BitVec.toNat_setWidth_of_le (by decide)

theorem lowByte_toNat (d : Reg) : (lowByte d).toNat = d.toNat % 256 := BitVec.toNat_setWidth ..

/-- TREQ reads only bits 7:0 of the data (R64). -/
theorem lowByte_congr {d d' : Reg} (h : d.extractLsb' 0 8 = d'.extractLsb' 0 8) : lowByte d = lowByte d' := by
  have low (v : Reg) : lowByte v = v.extractLsb' 0 8 := BitVec.setWidth_eq_extractLsb' (by decide)
  rw [low, low, h]

/-- Truncation reads only the bits of the width. -/
theorem fit_congr {w : Nat} {d d' : BitVec 16} (h : d.toNat % 2 ^ w = d'.toNat % 2 ^ w) : fit w d = fit w d' :=
  BitVec.eq_of_toNat_eq (by rw [toNat_fit, toNat_fit, h])

-- What the operand writes make of a state

theorem exec_wrTreq (d : Reg) (s : State) :
    exec (.wrTreq d) s = .next { s with seq := { s.seq with treq := lowByte d } } := rfl

theorem exec_wrTptr (d : Reg) (s : State) :
    exec (.wrTptr d) s = .next { s with seq := { s.seq with tptr := toAddress s d } } := rfl

theorem exec_wrTlen (d : Reg) (s : State) :
    exec (.wrTlen d) s = .next { s with seq := { s.seq with tlen := toLength s d } } := rfl

theorem exec_wrTcount (d : Reg) (s : State) :
    exec (.wrTcount d) s = .next { s with timer := { s.timer with tcount := toCount s d } } := rfl

/-- Settles O14, read by read. -/
theorem elementReadsAnswerTheElement : Obligations.ElementReadsAnswerTheElement := by
  intro s
  refine ⟨⟨_, rfl, ?treq⟩, ⟨_, rfl, ?tptr⟩, ⟨_, rfl, ?tlen⟩, ⟨_, rfl, ?tidx⟩, ⟨_, rfl, ?tcount⟩, ⟨_, rfl, ?tcnt⟩⟩
  case treq => exact byteWord_toNat _
  all_goals exact toNat_fit _ _

/-- Settles O18, write by write. -/
theorem operandWritesOnlyStore : Obligations.OperandWritesOnlyStore := by
  intro s d
  exact ⟨⟨_, lowByte_toNat d, exec_wrTreq d s⟩, ⟨_, toNat_fit _ d, exec_wrTptr d s⟩,
    ⟨_, toNat_fit _ d, exec_wrTlen d s⟩, ⟨_, toNat_fit _ d, exec_wrTcount d s⟩⟩

/-- Settles O17, clause by clause of R45. -/
theorem reservedAndReadOnlyRegisters : Obligations.ReservedAndReadOnlyRegisters := by
  intro s
  refine ⟨?readZero, ?ignored, ?treq, ?tptr, ?tlen, ?tcount, ?cmd, ?upperBits⟩
  case readZero =>
    intro i hi
    simp only [List.mem_cons, List.not_mem_nil, or_false] at hi
    rcases hi with rfl | rfl | rfl | rfl <;> rfl
  case ignored =>
    intro d i hi
    simp only [List.mem_cons, List.not_mem_nil, or_false] at hi
    rcases hi with rfl | rfl | rfl | rfl | rfl | rfl | rfl | rfl | rfl | rfl | rfl <;> rfl
  case treq => exact fun d d' h => by rw [exec_wrTreq, exec_wrTreq, lowByte_congr h]
  case tptr => exact fun d d' h => by rw [exec_wrTptr, exec_wrTptr, toAddress, toAddress, fit_congr h]
  case tlen => exact fun d d' h => by rw [exec_wrTlen, exec_wrTlen, toLength, toLength, fit_congr h]
  case tcount => exact fun d d' h => by rw [exec_wrTcount, exec_wrTcount, toCount, toCount, fit_congr h]
  case cmd => exact fun d d' h => congrArg decodeCommand h
  case upperBits =>
    intro q hq
    simp only [List.mem_cons, List.not_mem_nil, or_false] at hq
    rcases hq with rfl | rfl | rfl | rfl
    · exact ⟨_, rfl, (byteWord_toNat _).trans_lt s.seq.treq.isLt⟩
    · exact ⟨_, rfl, fit_lt _ _⟩
    · exact ⟨_, rfl, fit_lt _ _⟩
    · exact ⟨_, rfl, fit_lt _ _⟩

end Sys2Proof.Machine

/-! Proofs of the family 30_encoding: what the fields of an access word decide, the rows of the table, the fields of the
registers that report, the codes without effect, and the submit procedure. -/

namespace Sys2Proof

-- What a mask keeps of an access word (R60, R62) -------------------------------------------------------------------

/-- Words that agree under a mask agree in each field the mask covers. -/
theorem extractLsb'_eq_of_and_eq {w v m : AccessWord} (h : w &&& m = v &&& m) {start len : Nat}
    (covered : m.extractLsb' start len = BitVec.allOnes len) : w.extractLsb' start len = v.extractLsb' start len := by
  have field (x : AccessWord) : (x &&& m).extractLsb' start len = x.extractLsb' start len := by
    rw [BitVec.extractLsb'_and, covered, BitVec.and_allOnes]
  rw [← field w, h, field]

theorem accessIsWrite_eq_of_and_eq {w v m : AccessWord} (h : w &&& m = v &&& m) (covered : m.extractLsb' 31 1 = 1#1) :
    accessIsWrite w = accessIsWrite v := by
  have bit (x : AccessWord) : accessIsWrite x = (x.extractLsb' 31 1).getLsbD 0 := by simp [accessIsWrite]
  rw [bit, bit, extractLsb'_eq_of_and_eq h covered]

/-- The opcode of a command is bits 3:0 of its word (R62). -/
theorem commandOpcode_accessData (w : AccessWord) : commandOpcode (accessData w) = w.extractLsb' 0 4 := by
  apply BitVec.eq_of_getLsbD_eq
  intro i hi
  simp [commandOpcode, accessData, hi]

theorem commandOpcode_eq_of_and_eq {w v m : AccessWord} (h : w &&& m = v &&& m) (covered : m.extractLsb' 0 4 = 15#4) :
    commandOpcode (accessData w) = commandOpcode (accessData v) := by
  rw [commandOpcode_accessData, commandOpcode_accessData, extractLsb'_eq_of_and_eq h covered]

/-- Words that agree in every bit of a mask agree under it. -/
theorem and_eq_of_getLsbD_eq {w v m : AccessWord}
    (h : ∀ i < 32, m.getLsbD i = true → w.getLsbD i = v.getLsbD i) : w &&& m = v &&& m := by
  apply BitVec.eq_of_getLsbD_eq
  intro i hi
  rw [BitVec.getLsbD_and, BitVec.getLsbD_and]
  cases hm : m.getLsbD i with
  | false => rw [Bool.and_false, Bool.and_false]
  | true => rw [h i hi hm]

theorem getLsbD_eq_of_accessIdx_eq {w v : AccessWord} (h : accessIdx w = accessIdx v) {i : Nat} (lo : 16 ≤ i)
    (hi : i < 20) : w.getLsbD i = v.getLsbD i := by
  have bit (x : AccessWord) : x.getLsbD i = (accessIdx x).getLsbD (i - 16) := by
    have inside : i - 16 < 4 := by omega
    simp [accessIdx, inside, Nat.add_sub_cancel' lo]
  rw [bit, bit, h]

theorem getLsbD_eq_of_commandOpcode_eq {w v : AccessWord}
    (h : commandOpcode (accessData w) = commandOpcode (accessData v)) {i : Nat} (hi : i < 4) :
    w.getLsbD i = v.getLsbD i := by
  have bit (x : AccessWord) : x.getLsbD i = (commandOpcode (accessData x)).getLsbD i := by
    simp [commandOpcode_accessData, hi]
  rw [bit, bit, h]

/-- The mask of the reads, and of the writes but CMD's, keeps `w` and `idx` alone. -/
theorem and_headMask_eq {w v : AccessWord} (hw : accessIsWrite w = accessIsWrite v)
    (hidx : accessIdx w = accessIdx v) : w &&& 0x800F0000#32 = v &&& 0x800F0000#32 := by
  have bits : ∀ i < 32, (0x800F0000#32).getLsbD i = true → i = 31 ∨ 16 ≤ i ∧ i < 20 := by decide
  refine and_eq_of_getLsbD_eq fun i hi hm => ?_
  rcases bits i hi hm with rfl | ⟨lo, hi⟩
  · exact hw
  · exact getLsbD_eq_of_accessIdx_eq hidx lo hi

/-- The mask of the commands keeps the opcode beside. -/
theorem and_commandMask_eq {w v : AccessWord} (hw : accessIsWrite w = accessIsWrite v)
    (hidx : accessIdx w = accessIdx v) (hop : commandOpcode (accessData w) = commandOpcode (accessData v)) :
    w &&& 0x800F000F#32 = v &&& 0x800F000F#32 := by
  have bits : ∀ i < 32, (0x800F000F#32).getLsbD i = true → i = 31 ∨ 16 ≤ i ∧ i < 20 ∨ i < 4 := by decide
  refine and_eq_of_getLsbD_eq fun i hi hm => ?_
  rcases bits i hi hm with rfl | ⟨lo, hi⟩ | hi
  · exact hw
  · exact getLsbD_eq_of_accessIdx_eq hidx lo hi
  · exact getLsbD_eq_of_commandOpcode_eq hop hi

-- What the decoder reads of a word (R60, R62) ----------------------------------------------------------------------

@[simp] theorem commandOpcode_zero_append (op : BitVec 4) : commandOpcode (0#12 ++ op) = op :=
  BitVec.extractLsb'_append_eq_right

theorem decodeAccess_encodeCommand (op : BitVec 4) : decodeAccess (encodeCommand op) = decodeCommand op :=
  (decodeAccess_encodeWrite 0 _).trans (congrArg decodeCommand (commandOpcode_zero_append op))

theorem decodeAccess_of_command {w : AccessWord} (hw : accessIsWrite w = true) (hidx : accessIdx w = 0) :
    decodeAccess w = decodeCommand (commandOpcode (accessData w)) := by
  rw [decodeAccess, if_pos hw, hidx]
  rfl

/-- Bits 30:20 of a word are ignored (R60). -/
theorem decodeAccess_eq_of_fields {w v : AccessWord} (h : w &&& 0x800FFFFF#32 = v &&& 0x800FFFFF#32) :
    decodeAccess w = decodeAccess v :=
  decodeAccess_congr (accessIsWrite_eq_of_and_eq h rfl) (extractLsb'_eq_of_and_eq h rfl)
    fun _ => extractLsb'_eq_of_and_eq h rfl

/-- A read ignores its data too (R60). -/
theorem decodeAccess_read_eq {w v : AccessWord} (hr : accessIsWrite w = false)
    (h : w &&& 0x800F0000#32 = v &&& 0x800F0000#32) : decodeAccess w = decodeAccess v :=
  decodeAccess_congr (accessIsWrite_eq_of_and_eq h rfl) (extractLsb'_eq_of_and_eq h rfl)
    fun hw => absurd (hr.symm.trans hw) Bool.false_ne_true

/-- A command ignores bits 15:4 of its data (R62). -/
theorem decodeAccess_command_eq {w v : AccessWord} (hc : w &&& 0x800F0000#32 = 0x80000000#32)
    (h : w &&& 0x800F000F#32 = v &&& 0x800F000F#32) : decodeAccess w = decodeAccess v := by
  have cmd : w &&& 0x800F0000#32 = 0x80000000#32 &&& 0x800F0000#32 := hc
  have hw : accessIsWrite w = true := accessIsWrite_eq_of_and_eq cmd rfl
  have hidx : accessIdx w = 0 := extractLsb'_eq_of_and_eq cmd rfl
  have hv : accessIsWrite v = true := (accessIsWrite_eq_of_and_eq h rfl).symm.trans hw
  have hidx' : accessIdx v = 0 := (extractLsb'_eq_of_and_eq h rfl).symm.trans hidx
  rw [decodeAccess_of_command hw hidx, decodeAccess_of_command hv hidx', commandOpcode_eq_of_and_eq h rfl]

-- The words as numbers (R60, R62, R76) -----------------------------------------------------------------------------

/-- `WR idx, v`: bit 31, `idx` from bit 16 on, `v` from bit 0 on. -/
theorem encodeWrite_eq_or (idx : BitVec 4) (v : Reg) :
    encodeWrite idx v = 0x80000000#32 ||| (idx.setWidth 32 <<< 16) ||| v.setWidth 32 := by
  have top : ∀ i < 32, (0x80000000#32).getLsbD i = decide (i = 31) := by decide
  apply BitVec.eq_of_getLsbD_eq
  intro i hi
  have hv : 16 ≤ i → v.getLsbD i = false := BitVec.getLsbD_of_ge v i
  have hidx : 4 ≤ i - 16 → idx.getLsbD (i - 16) = false := BitVec.getLsbD_of_ge idx (i - 16)
  simp only [encodeWrite_bit, BitVec.getLsbD_or, BitVec.getLsbD_shiftLeft, BitVec.getLsbD_setWidth, top i hi]
  grind

theorem encodeRead_eq_shift (idx : BitVec 4) : encodeRead idx = idx.setWidth 32 <<< 16 := by
  apply BitVec.eq_of_getLsbD_eq
  intro i hi
  simp only [encodeRead_bit, BitVec.getLsbD_shiftLeft, BitVec.getLsbD_setWidth]
  grind

/-- `CMD op`, each of the sixteen opcodes. -/
theorem encodeCommand_eq_or : ∀ op : BitVec 4, encodeCommand op = 0x80000000#32 ||| op.setWidth 32 := by
  decide

/-- Settles O3: the numbers bit by bit, the ignored fields by what each mask covers. -/
theorem accessWordsAreTheSpecsNumbers : Obligations.AccessWordsAreTheSpecsNumbers :=
  ⟨fun idx v => ⟨encodeWrite_eq_or idx v, decodeAccess_encodeWrite idx v⟩,
    fun idx => ⟨encodeRead_eq_shift idx, decodeAccess_encodeRead idx⟩,
    fun op => ⟨encodeCommand_eq_or op, decodeAccess_encodeCommand op⟩,
    fun _ _ => decodeAccess_eq_of_fields, fun _ _ => decodeAccess_read_eq, fun _ _ => decodeAccess_command_eq⟩

/-- Settles O4, word by word. -/
theorem wordsOfTheTestVectorsDecode : Obligations.WordsOfTheTestVectorsDecode := by
  unfold Obligations.WordsOfTheTestVectorsDecode
  decide

-- The rows of the table (R61, R62, R77) ----------------------------------------------------------------------------

/-- Any two rows differ in a bit that both their masks keep. -/
theorem accessRows_disjoint : accessRows.Pairwise fun r q => r.2.1 &&& q.2.2 ≠ q.2.1 &&& r.2.2 := by
  decide

theorem accessRow_unique {w : AccessWord} {r q : String × BitVec 32 × BitVec 32} (hr : r ∈ accessRows)
    (hq : q ∈ accessRows) (wr : w &&& r.2.2 = r.2.1) (wq : w &&& q.2.2 = q.2.1) : q = r := by
  have symm : Std.Symm fun r q : String × BitVec 32 × BitVec 32 => r.2.1 &&& q.2.2 ≠ q.2.1 &&& r.2.2 :=
    ⟨fun _ _ => Ne.symm⟩
  by_contra other
  refine accessRows_disjoint.forall hq hr other ?_
  rw [← wr, ← wq, BitVec.and_assoc, BitVec.and_assoc, BitVec.and_comm q.2.2]

/-- Each index has its read row. -/
theorem decodeRead_row : ∀ idx : BitVec 4,
    ((decodeRead idx).mnemonic, encodeRead idx &&& 0x800F0000#32, 0x800F0000#32) ∈ accessRows := by
  decide

/-- Each index but CMD's has its write row. -/
theorem decodeWrite_row : ∀ idx : BitVec 4, idx ≠ 0 →
    ((decodeWrite idx 0).mnemonic, encodeWrite idx 0 &&& 0x800F0000#32, 0x800F0000#32) ∈ accessRows := by
  decide

/-- The data of a write choose its row only where it goes to CMD. -/
theorem decodeWrite_mnemonic {idx : BitVec 4} (h : idx ≠ 0) (d : Reg) :
    (decodeWrite idx d).mnemonic = (decodeWrite idx 0).mnemonic := by
  unfold decodeWrite
  split
  case h_1 cmd => exact absurd (BitVec.eq_of_toNat_eq cmd) h
  all_goals rfl

/-- Each opcode has its command row, whose mask lies within the commands' fields. -/
theorem decodeCommand_row : ∀ op : BitVec 4, ∃ r ∈ accessRows, r.1 = (decodeCommand op).mnemonic ∧
    encodeCommand op &&& r.2.2 = r.2.1 ∧ 0x800F000F#32 &&& r.2.2 = r.2.2 := by
  decide

/-- Row `r` of the table has the word and names the operation the decoder reads from it. -/
structure RowFits (w : AccessWord) (r : String × BitVec 32 × BitVec 32) : Prop where
  word : w &&& r.2.2 = r.2.1
  mnemonic : (decodeAccess w).mnemonic = r.1

theorem decodeAccess_row_of_read {w : AccessWord} (hw : accessIsWrite w = false) :
    ∃ r ∈ accessRows, RowFits w r := by
  refine ⟨_, decodeRead_row (accessIdx w), ?_, ?_⟩
  · exact and_headMask_eq (hw.trans (accessIsWrite_encodeRead _).symm) (accessIdx_encodeRead _).symm
  · rw [decodeAccess, if_neg (by simp [hw])]

theorem decodeAccess_row_of_write {w : AccessWord} (hw : accessIsWrite w = true) (hidx : accessIdx w ≠ 0) :
    ∃ r ∈ accessRows, RowFits w r := by
  refine ⟨_, decodeWrite_row (accessIdx w) hidx, ?_, ?_⟩
  · exact and_headMask_eq (hw.trans (accessIsWrite_encodeWrite _ _).symm) (accessIdx_encodeWrite _ _).symm
  · rw [decodeAccess, if_pos hw, decodeWrite_mnemonic hidx]

theorem decodeAccess_row_of_command {w : AccessWord} (hw : accessIsWrite w = true) (hidx : accessIdx w = 0) :
    ∃ r ∈ accessRows, RowFits w r := by
  obtain ⟨r, hr, name, fits, within⟩ := decodeCommand_row (commandOpcode (accessData w))
  refine ⟨r, hr, ?_, by rw [decodeAccess_of_command hw hidx, name]⟩
  have same : w &&& 0x800F000F#32 = encodeCommand (commandOpcode (accessData w)) &&& 0x800F000F#32 :=
    and_commandMask_eq (by simp [encodeCommand, hw]) (by simp [encodeCommand, hidx]) (by simp [encodeCommand])
  rw [← within, ← BitVec.and_assoc, same, BitVec.and_assoc, within, fits]

theorem decodeAccess_row (w : AccessWord) :
    ∃ r ∈ accessRows, RowFits w r := by
  cases hw : accessIsWrite w with
  | false => exact decodeAccess_row_of_read hw
  | true =>
    by_cases hidx : accessIdx w = 0
    · exact decodeAccess_row_of_command hw hidx
    · exact decodeAccess_row_of_write hw hidx

/-- Settles O2: the row of the decoded operation fits the word, and no two rows fit one word. -/
theorem everyAccessWordHasExactlyItsTableRow : Obligations.EveryAccessWordHasExactlyItsTableRow := by
  intro w
  obtain ⟨r, hr, fits, name⟩ := decodeAccess_row w
  exact ⟨r, hr, fits, name, fun q hq wq => accessRow_unique hr hq fits wq⟩

-- The decoder after the encoder (R77) ------------------------------------------------------------------------------

theorem decodeCommand_reserved67 {op : BitVec 4} (lo : 6 ≤ op.toNat) (hi : op.toNat ≤ 7) :
    decodeCommand op = .cmdReserved67 op := by
  have range : op.toNat = 6 ∨ op.toNat = 7 := by omega
  rcases range with h | h <;> simp only [decodeCommand, h]

theorem decodeCommand_reserved815 {op : BitVec 4} (lo : 8 ≤ op.toNat) : decodeCommand op = .cmdReserved815 op := by
  unfold decodeCommand
  split
  case h_9 => rfl
  all_goals omega

theorem decode_encodeWrite (idx : BitVec 4) (d : Reg) :
    decode (.access (encodeWrite idx d)) = .ok (decodeWrite idx d) :=
  congrArg Except.ok (decodeAccess_encodeWrite idx d)

theorem decode_encodeCommand (op : BitVec 4) : decode (.access (encodeCommand op)) = .ok (decodeCommand op) :=
  congrArg Except.ok (decodeAccess_encodeCommand op)

/-- With a transfer registered and the sequencer idle, every event but the two faults is ignored (R92, R93). -/
theorem selectArm_idle {e : BitVec 4} {c : ArmContext} (hv : c.bufValid = true) (hs : c.state = .idle)
    (h6 : e ≠ 6) (h7 : e ≠ 7) : selectArm e c = .ignored e := by
  rw [selectArm, if_neg (by simp [hv]), if_neg h6, if_neg h7]
  simp [hs]

/-- Settles O1, by operation: one without an operand has one selector, which the decoder reads back by evaluation; an
operand is read back by the law of its format. -/
theorem decodeOfEncodeGivesTheInstruction : Obligations.DecodeOfEncodeGivesTheInstruction := by
  intro i hwf
  cases i
  case cmdReserved67 op =>
    simp only [Instr.wellFormed, Bool.and_eq_true, decide_eq_true_eq] at hwf
    obtain ⟨lo, hi⟩ := hwf
    rw [encode, decode_encodeCommand, decodeCommand_reserved67 lo hi]
  case cmdReserved815 op =>
    rw [encode, decode_encodeCommand, decodeCommand_reserved815 (of_decide_eq_true hwf)]
  case wrStatus d => exact decode_encodeWrite 1 d
  case wrTreq d => exact decode_encodeWrite 2 d
  case wrTptr d => exact decode_encodeWrite 3 d
  case wrTlen d => exact decode_encodeWrite 4 d
  case wrTidx d => exact decode_encodeWrite 5 d
  case wrTcount d => exact decode_encodeWrite 6 d
  case wrTstat d => exact decode_encodeWrite 7 d
  case wrTcnt d => exact decode_encodeWrite 8 d
  case wrBev d => exact decode_encodeWrite 9 d
  case wrBcntAdd d => exact decode_encodeWrite 10 d
  case wrBcntSet d => exact decode_encodeWrite 11 d
  case wrBtn d => exact decode_encodeWrite 12 d
  case wrRsvd13 d => exact decode_encodeWrite 13 d
  case wrRsvd14 d => exact decode_encodeWrite 14 d
  case wrRsvd15 d => exact decode_encodeWrite 15 d
  case hSpurious e => rfl
  case hIgnored e =>
    simp only [Instr.wellFormed, Bool.and_eq_true, decide_eq_true_eq] at hwf
    obtain ⟨h6, h7⟩ := hwf
    rw [encode, decode, selectArm_idle rfl rfl h6 h7, Arm.instr]
  all_goals rfl

end Sys2Proof

namespace Sys2Proof.Machine

-- The fields of a register (R63, R65, R66) -------------------------------------------------------------------------

/-- A field above the lowest one of a word is a field of the rest. -/
theorem field_above {n m start len : Nat} {x : BitVec n} {y : BitVec m} {f : BitVec len}
    (h : x.extractLsb' (start - m) len = f) (above : m ≤ start := by decide) : (x ++ y).extractLsb' start len = f :=
  (BitVec.extractLsb'_append_eq_of_le above).trans h

theorem bit_above {n m i : Nat} {x : BitVec n} {y : BitVec m} {b : Bool} (h : x.getLsbD (i - m) = b)
    (above : m ≤ i := by decide) : (x ++ y).getLsbD i = b := by
  rw [BitVec.getLsbD_append, if_neg (Nat.not_lt.mpr above), h]

theorem bit_lowest {n : Nat} (x : BitVec n) (b : Bool) : (x ++ bit b).getLsbD 0 = b := by
  rw [BitVec.getLsbD_append, if_pos Nat.one_pos]
  cases b <;> rfl

/-- The fields of STATUS (R63), from bit 0 up. -/
theorem statusWord_fields (s : State) :
    (statusWord s).getLsbD 0 = s.seq.pending ∧ (statusWord s).getLsbD 1 = busIdle s ∧
    (statusWord s).getLsbD 2 = s.seq.subAcc ∧ (statusWord s).extractLsb' 3 2 = s.seq.outcome.code ∧
    (statusWord s).extractLsb' 5 3 = s.seq.state.code ∧ (statusWord s).getLsbD 8 = s.seq.bufValid ∧
    (statusWord s).getLsbD 9 = s.link.evPending ∧ (statusWord s).extractLsb' 10 4 = s.link.evCode ∧
    (statusWord s).extractLsb' 14 2 = 0 := by
  refine ⟨bit_lowest _ _, bit_above (bit_lowest _ _), bit_above (bit_above (bit_lowest _ _)), ?outcome, ?state, ?valid,
    ?event, ?code, ?reserved⟩
  case outcome => exact field_above (field_above (field_above BitVec.extractLsb'_append_eq_right))
  case state => exact field_above (field_above (field_above (field_above BitVec.extractLsb'_append_eq_right)))
  case valid => exact bit_above (bit_above (bit_above (bit_above (bit_above (bit_lowest _ _)))))
  case event => exact bit_above (bit_above (bit_above (bit_above (bit_above (bit_above (bit_lowest _ _))))))
  case code =>
    exact field_above (field_above (field_above (field_above (field_above (field_above (field_above
      BitVec.extractLsb'_append_eq_right))))))
  case reserved =>
    exact field_above (field_above (field_above (field_above (field_above (field_above (field_above
      (field_above rfl)))))))

/-- The fields of TSTAT (R65). -/
theorem tstatWord_fields (s : State) :
    (tstatWord s).getLsbD 0 = s.timer.running ∧ (tstatWord s).getLsbD 1 = s.timer.secPending ∧
    (tstatWord s).getLsbD 2 = s.timer.tickPending ∧ (tstatWord s).getLsbD 3 = irqSecond s ∧
    (tstatWord s).getLsbD 4 = irqTick s ∧ (tstatWord s).extractLsb' 5 11 = 0 :=
  ⟨bit_lowest _ _, bit_above (bit_lowest _ _), bit_above (bit_above (bit_lowest _ _)),
    bit_above (bit_above (bit_above (bit_lowest _ _))), bit_above (bit_above (bit_above (bit_above (bit_lowest _ _)))),
    field_above (field_above (field_above (field_above (field_above rfl))))⟩

/-- The fields of BEV (R66). -/
theorem bevWord_fields (s : State) :
    (bevWord s).extractLsb' 0 3 = s.bAdd.bev.code ∧ (bevWord s).getLsbD 3 = false ∧
    (bevWord s).extractLsb' 4 3 = s.bSet.bev.code ∧ (bevWord s).extractLsb' 7 9 = 0 :=
  ⟨BitVec.extractLsb'_append_eq_right, bit_above (bit_lowest _ false),
    field_above (field_above BitVec.extractLsb'_append_eq_right), field_above (field_above (field_above rfl))⟩

/-- The fields of BCNT_ADD and BCNT_SET (R66). -/
theorem bcntWord_fields (c : PressCounter) :
    (bcntWord c).extractLsb' 0 8 = c.active ∧ (bcntWord c).getLsbD 8 = c.longFired ∧
    (bcntWord c).extractLsb' 9 7 = 0 :=
  ⟨BitVec.extractLsb'_append_eq_right, bit_above (bit_lowest _ _), field_above (field_above rfl)⟩

theorem busIdle_iff (s : State) : busIdle s = true ↔
    s.line.ph = .idle ∧ s.line.busyDet = false ∧ s.io.sdaIn = true ∧ s.io.sclIn = true := by
  simp [busIdle, and_assoc]

theorem pressed_iff (b : Button) (s : State) : pressed b s = true ↔ buttonLevel b s = activeLevel b s := beq_iff_eq

/-- Settles O13. -/
theorem statusReadsItsFields : Obligations.StatusReadsItsFields := by
  intro s
  obtain ⟨pending, idle, accepted, outcome, state, valid, event, code, reserved⟩ := statusWord_fields s
  exact ⟨fun _ => rfl, statusWord s, rfl, pending, by rw [idle, busIdle_iff], accepted, outcome, state, valid, event,
    code, reserved⟩

/-- Settles O15; the reads of TCOUNT and TCNT are those of O14. -/
theorem timerRegistersReadTheirFields : Obligations.TimerRegistersReadTheirFields := by
  intro s
  obtain ⟨-, -, -, -, tcount, tcnt⟩ := elementReadsAnswerTheElement s
  exact ⟨fun d => ⟨_, toNat_fit _ d, exec_wrTcount d s⟩, tcount, tcnt, tstatWord s, rfl, tstatWord_fields s⟩

/-- Settles O16. -/
theorem buttonRegistersReadTheirFields : Obligations.ButtonRegistersReadTheirFields := by
  intro s
  obtain ⟨add, set, rest⟩ := btnWord_bits s
  exact ⟨⟨_, rfl, bevWord_fields s⟩, ⟨_, rfl, bcntWord_fields s.bAdd⟩, ⟨_, rfl, bcntWord_fields s.bSet⟩,
    ⟨_, rfl, add.trans (pressed_iff .add s), set.trans (pressed_iff .set s), rest⟩⟩

-- Actions by phase (R114, R115) ------------------------------------------------------------------------------------

/-- Settles O36: each action's operation is `takeAction`, which has one way for `P_HOLD`, one for `P_IDLE` and one for
the rest. -/
theorem actionsAreTakenByPhase : Obligations.ActionsAreTakenByPhase := by
  intro s
  refine ⟨fun hold => ?_, fun idle => ?_, fun notHold notIdle i hi => ?_⟩
  · have taken (f g : State → State) : (.next (takeAction f g s) : Result) =
        .next (g { takeLatched s with line := { s.line with qcnt := 0 } }) := congrArg _ (takeAction_hold f g hold)
    refine ⟨taken _ _, taken _ _, taken _ _, taken _ _, taken _ _, fun i hi => ?_⟩
    simp only [List.mem_cons, List.not_mem_nil, or_false] at hi
    rcases hi with rfl | rfl | rfl <;> exact taken _ _
  · have taken (f g : State → State) : (.next (takeAction f g s) : Result) = .next (f (takeLatched s)) :=
      congrArg _ (takeAction_idle f g idle)
    refine ⟨taken _ _, fun i hi => ?_⟩
    simp only [List.mem_cons, List.not_mem_nil, or_false] at hi
    rcases hi with rfl | rfl | rfl | rfl | rfl | rfl | rfl <;> exact taken _ _
  · have untaken (f g : State → State) : (.next (takeAction f g s) : Result) = .next s :=
      congrArg _ (takeAction_busy f g notIdle notHold)
    simp only [List.mem_cons, List.not_mem_nil, or_false] at hi
    rcases hi with rfl | rfl | rfl | rfl | rfl | rfl | rfl | rfl <;> exact untaken _ _

-- Codes without effect (R74) ---------------------------------------------------------------------------------------

theorem step_next (s : State) : ∃ t, step s = .next t := by
  by_cases hs : s.io.stage = .sample
  · exact ⟨_, step_sample hs⟩
  · cases hi : currentInstr s with
    | none => exact ⟨_, step_pass hs hi⟩
    | some i =>
      obtain ⟨u, hu⟩ := exec_next i s
      exact ⟨advance u, by rw [step_run hs hi, hu, onNext]⟩

/-- `A_NONE` and the reserved action code are one operation (R71). -/
theorem runAction_reserved {a : BitVec 3} (h : a = 0 ∨ a = 7) (s : State) : runAction a s = reservedOp s := by
  rcases h with rfl | rfl <;> rfl

/-- A waiting line engine drops such a code; at most the phase timer is cleared (R114, R115). -/
theorem reservedOp_waiting {s : State} (h : s.line.ph = .idle ∨ s.line.ph = .hold) :
    ∃ q, reservedOp s = { takeLatched s with line := { s.line with qcnt := q } } := by
  rcases h with h | h
  · exact ⟨s.line.qcnt, takeAction_idle _ _ h⟩
  · exact ⟨0, takeAction_hold _ _ h⟩

theorem lineStepOp_reserved {s : State} (hv : s.link.actValid = true) (hc : s.link.actCode = 0 ∨ s.link.actCode = 7)
    (hp : s.line.ph = .idle ∨ s.line.ph = .hold) :
    ∃ q, lineStepOp s = { takeLatched s with line := { (detector s).line with qcnt := q } } := by
  rw [lineStepOp_waiting hp, takePending, detector_link, if_pos hv, runAction_reserved hc]
  exact reservedOp_waiting (s := detector s) hp

/-- `EV_NONE` and the reserved event codes select an arm that only takes the event: no other names them (R84, R92). -/
theorem selectArm_reserved {e : BitVec 4} (h : e = 0 ∨ 9 ≤ e.toNat) (c : ArmContext) :
    selectArm e c = .spurious e ∨ selectArm e c = .ignored e := by
  have unnamed (k : BitVec 4) (h0 : k ≠ 0) (h9 : k.toNat < 9) : e ≠ k := by
    rintro rfl
    rcases h with h | h
    · exact h0 h
    · omega
  cases hv : c.bufValid with
  | false => exact .inl (if_pos hv)
  | true => right; simp [selectArm, hv, unnamed]

theorem execHandler_dropped {s : State} (h : s.seq.bufValid = false ∨ s.link.evCode = 0 ∨ 9 ≤ s.link.evCode.toNat ∨
    selectArm s.link.evCode (armContext s) = .ignored s.link.evCode) : exec .handler s = .next (takeEvent s) := by
  have run : exec .handler s = .next (runArm (selectArm s.link.evCode (armContext s)) s) := rfl
  have drop : selectArm s.link.evCode (armContext s) = .spurious s.link.evCode ∨
      selectArm s.link.evCode (armContext s) = .ignored s.link.evCode := by
    rcases h with unregistered | noEvent | reserved | misfit
    · exact .inl (if_pos unregistered)
    · exact selectArm_reserved (.inl noEvent) _
    · exact selectArm_reserved (.inr reserved) _
    · exact .inr misfit
  rcases drop with e | e <;> rw [run, e] <;> rfl

/-- Settles O46, sentence by sentence of R74. -/
theorem nothingTrapsAndReservedCodesAreDropped : Obligations.NothingTrapsAndReservedCodesAreDropped := by
  refine ⟨exec_next, step_next, fun _ _ => ⟨rfl, rfl, rfl⟩, fun s d => ⟨fun i hi => ?reads, fun i hi => ?writes⟩,
    fun _ _ => decodeAccess_eq_of_fields, fun s hv hc hp => ?action, fun s h => execHandler_dropped h⟩
  case reads =>
    simp only [List.mem_cons, List.not_mem_nil, or_false] at hi
    rcases hi with rfl | rfl | rfl <;> rfl
  case writes =>
    simp only [List.mem_cons, List.not_mem_nil, or_false] at hi
    rcases hi with rfl | rfl | rfl <;> rfl
  case action =>
    obtain ⟨q, e⟩ := lineStepOp_reserved hv hc hp
    exact ⟨_, congrArg Host.Outcome.next e, rfl, rfl, rfl, rfl, rfl⟩

-- The submit procedure (R76, R177) ---------------------------------------------------------------------------------

/-- The addresses of the host's stores wrap at 65536 (log 5). -/
theorem address_succ_add (p : BufAddr) (k : Nat) : ((p + 1).toNat + k) % 65536 = (p.toNat + (k + 1)) % 65536 := by
  have : (p + 1).toNat = (p.toNat + 1) % 65536 := BitVec.toNat_add p 1
  omega

/-- An address that the stores do not reach keeps its byte. -/
theorem memRead_storesFrom_other {p a : BufAddr} {bytes : List Byte} (m : Memory)
    (h : ∀ k < bytes.length, a.toNat ≠ (p.toNat + k) % 65536) :
    memRead a (hostStores (storesFrom p bytes) m) = memRead a m := by
  induction bytes generalizing p m with
  | nil => rfl
  | cons b rest ih =>
    have first : a ≠ p := by
      rintro rfl
      exact h 0 (Nat.zero_lt_succ _) (Nat.mod_eq_of_lt a.isLt).symm
    have later (k : Nat) (hk : k < rest.length) : a.toNat ≠ ((p + 1).toNat + k) % 65536 := by
      rw [address_succ_add]
      exact h (k + 1) (Nat.succ_lt_succ hk)
    rw [storesFrom, hostStores, ih _ later, memRead_memWrite_other b m first]

/-- The stores put byte `k` at `p + k`, and with no more bytes than addresses no later one covers it. -/
theorem memRead_storesFrom {p a : BufAddr} {bytes : List Byte} (m : Memory) {k : Nat} (hl : bytes.length ≤ 65536)
    (hk : k < bytes.length) (ha : a.toNat = (p.toNat + k) % 65536) :
    bytes[k]? = some (memRead a (hostStores (storesFrom p bytes) m)) := by
  induction bytes generalizing p m k with
  | nil => cases hk
  | cons b rest ih =>
    rw [List.length_cons] at hl hk
    rw [storesFrom, hostStores]
    cases k with
    | zero =>
      obtain rfl : a = p := BitVec.eq_of_toNat_eq (ha.trans (Nat.mod_eq_of_lt p.isLt))
      have later (j : Nat) (hj : j < rest.length) : a.toNat ≠ ((a + 1).toNat + j) % 65536 := by
        rw [address_succ_add]
        omega
      rw [memRead_storesFrom_other _ later, memRead_memWrite_same]
      rfl
    | succ k => exact ih _ (by omega) (by omega) (ha.trans (address_succ_add p k).symm)

theorem submitWords_decode (a : BitVec 7) (d : Bool) (p : BufAddr) (n : BufLen) :
    (submitWords a d p n).map decodeAccess =
      [.wrTreq ((bit d ++ a).setWidth 16), .wrTptr p, .wrTlen n, .cmdSubmit, .rdStatus] := by
  simp only [submitWords, requestWords, wrWord, rdWord, cmdWord, List.cons_append, List.nil_append, List.map,
    decodeAccess_encodeWrite, decodeAccess_encodeCommand, decodeAccess_encodeRead]
  rfl

/-- What TREQ keeps of a request: the direction above the address (R64). -/
theorem lowByte_request (a : BitVec 7) (d : Bool) :
    (lowByte ((bit d ++ a).setWidth 16)).toNat = d.toNat * 128 + a.toNat := by
  have parts : (bit d ++ a).toNat = d.toNat * 128 + a.toNat := by
    rw [BitVec.toNat_append, ← Nat.shiftLeft_add_eq_or_of_lt a.isLt, Nat.shiftLeft_eq, bit, BitVec.toNat_ofBool]
  have bound := (bit d ++ a).isLt
  rw [lowByte_toNat, BitVec.toNat_setWidth, parts]
  omega

theorem exec_wrTptr_of_lt {p : BufAddr} {s : State} (h : p.toNat < 2 ^ s.par.aw.val) :
    exec (.wrTptr p) s = .next { s with seq := { s.seq with tptr := p } } := by
  rw [exec_wrTptr, toAddress, fit_of_lt h]

theorem exec_wrTlen_of_lt {n : BufLen} {s : State} (h : n.toNat < 2 ^ s.par.lw.val) :
    exec (.wrTlen n) s = .next { s with seq := { s.seq with tlen := n } } := by
  rw [exec_wrTlen, toLength, fit_of_lt h]

theorem exec_cmdSubmit_accepted {s : State} (h : submitAccepted s = true) :
    exec .cmdSubmit s = .next (acceptTransfer s) := congrArg Host.Outcome.next (if_pos h)

theorem statusAccepted_acceptTransfer (s : State) : statusAccepted (statusWord (acceptTransfer s)) = true := by
  obtain ⟨-, -, accepted, -⟩ := statusWord_fields (acceptTransfer s)
  exact accepted

theorem statusOutcome_acceptTransfer (s : State) : statusOutcome (statusWord (acceptTransfer s)) = none := by
  obtain ⟨pending, -⟩ := statusWord_fields (acceptTransfer s)
  exact if_pos pending

/-- Settles O58: the stores by induction on the bytes, then the five accesses one by one. -/
theorem submitProcedureRegistersTheTransfer : Obligations.SubmitProcedureRegistersTheTransfer := by
  refine ⟨fun p bytes m hl => ⟨rfl, fun k a hk ha => memRead_storesFrom m hl hk ha⟩, ?_⟩
  intro s a d p n hp hn pending idle free sda scl
  have request := lowByte_request a d
  have ha := a.isLt
  refine ⟨_, n, _, _, _, _, _, _, submitWords_decode a d p n, exec_wrTreq _ s, exec_wrTptr_of_lt hp,
    exec_wrTlen_of_lt hn, exec_cmdSubmit_accepted ?accepted, rfl, rfl, statusAccepted_acceptTransfer _,
    statusOutcome_acceptTransfer _, ?address, ?direction, rfl, rfl, rfl, rfl⟩
  case accepted => exact (submitAccepted_iff _).mpr ⟨pending, idle, free, sda, scl⟩
  case address =>
    have hd := d.toNat_le
    refine (addressByte_toNat _).trans ?_
    rw [request]
    omega
  case direction =>
    refine (requestDir_eq _).trans ?_
    rw [request]
    cases d with
    | false => exact decide_eq_false (by rw [Bool.toNat_false]; omega)
    | true => exact decide_eq_true (by rw [Bool.toNat_true]; omega)

end Sys2Proof.Machine

/-! Proofs of the family 40_bus_sequencer: the condition of each handler arm's row, the arms' effects, and whole write and
read transfers on the byte-level environment of R99. -/

namespace Sys2Proof

-- The selection of an arm (R93) ------------------------------------------------------------------------------------

/-- The condition of an arm's `EVENT` row, with the order of R93 worked into it: on event `e` at most one arm's holds. -/
def Arm.When (e : BitVec 4) (c : ArmContext) : Arm → Prop
  | .spurious k => k = e ∧ c.bufValid = false
  | .faultArbLost => c.bufValid = true ∧ e = evArbLost
  | .faultBusError => c.bufValid = true ∧ e = evBusError
  | .nackAddr => c.bufValid = true ∧ e = evAddrNack ∧ (c.state = .addressing ∨ c.state = .writing)
  | .nackData => c.bufValid = true ∧ e = evDataNack ∧ (c.state = .addressing ∨ c.state = .writing)
  | .stopDone => c.bufValid = true ∧ e = evStopDone ∧ c.state = .stopping
  | .writeNextAddrAck =>
    c.bufValid = true ∧ e = evAddrAck ∧ c.dir = false ∧ c.state = .addressing ∧ c.idx.toNat < c.length.toNat
  | .writeNextDataAck =>
    c.bufValid = true ∧ e = evDataAck ∧ c.dir = false ∧ c.state = .writing ∧ c.idx.toNat < c.length.toNat
  | .writeDoneAddrAck =>
    c.bufValid = true ∧ e = evAddrAck ∧ c.dir = false ∧ c.state = .addressing ∧ c.idx = c.length
  | .writeDoneDataAck =>
    c.bufValid = true ∧ e = evDataAck ∧ c.dir = false ∧ c.state = .writing ∧ c.idx = c.length
  | .readFirst => c.bufValid = true ∧ e = evAddrAck ∧ c.dir = true ∧ c.state = .addressing
  | .readByte => c.bufValid = true ∧ e = evDataRcvd ∧ c.dir = true ∧ c.state = .reading
  | .ignored k => k = e ∧ c.bufValid = true ∧ e ≠ evArbLost ∧ e ≠ evBusError ∧
    ¬((e = evAddrNack ∨ e = evDataNack) ∧ (c.state = .addressing ∨ c.state = .writing)) ∧
    ¬(e = evStopDone ∧ c.state = .stopping) ∧
    ¬(c.dir = false ∧ (e = evAddrAck ∧ c.state = .addressing ∨ e = evDataAck ∧ c.state = .writing) ∧
      c.idx.toNat ≤ c.length.toNat) ∧
    ¬(c.dir = true ∧ (e = evAddrAck ∧ c.state = .addressing ∨ e = evDataRcvd ∧ c.state = .reading))

/-- The conditions cover every event and context: what none of the others covers is `H_IGNORED`'s. -/
theorem exists_arm_when (e : BitVec 4) (c : ArmContext) : ∃ a : Arm, a.When e c := by
  cases hv : c.bufValid with
  | false => exact ⟨.spurious e, rfl, hv⟩
  | true =>
    by_cases h6 : e = evArbLost
    · exact ⟨.faultArbLost, hv, h6⟩
    by_cases h7 : e = evBusError
    · exact ⟨.faultBusError, hv, h7⟩
    by_cases hnack : (e = evAddrNack ∨ e = evDataNack) ∧ (c.state = .addressing ∨ c.state = .writing)
    · obtain ⟨he | he, hs⟩ := hnack
      · exact ⟨.nackAddr, hv, he, hs⟩
      · exact ⟨.nackData, hv, he, hs⟩
    by_cases hstop : e = evStopDone ∧ c.state = .stopping
    · exact ⟨.stopDone, hv, hstop⟩
    by_cases hwrite : c.dir = false ∧ (e = evAddrAck ∧ c.state = .addressing ∨ e = evDataAck ∧ c.state = .writing) ∧
        c.idx.toNat ≤ c.length.toNat
    · obtain ⟨hd, hack, hle⟩ := hwrite
      have slot : c.idx.toNat < c.length.toNat ∨ c.idx = c.length := by bv_omega
      rcases hack with ⟨he, hs⟩ | ⟨he, hs⟩ <;> rcases slot with hlt | heq
      · exact ⟨.writeNextAddrAck, hv, he, hd, hs, hlt⟩
      · exact ⟨.writeDoneAddrAck, hv, he, hd, hs, heq⟩
      · exact ⟨.writeNextDataAck, hv, he, hd, hs, hlt⟩
      · exact ⟨.writeDoneDataAck, hv, he, hd, hs, heq⟩
    by_cases hread : c.dir = true ∧ (e = evAddrAck ∧ c.state = .addressing ∨ e = evDataRcvd ∧ c.state = .reading)
    · obtain ⟨hd, ⟨he, hs⟩ | ⟨he, hs⟩⟩ := hread
      · exact ⟨.readFirst, hv, he, hd, hs⟩
      · exact ⟨.readByte, hv, he, hd, hs⟩
    exact ⟨.ignored e, rfl, hv, h6, h7, hnack, hstop, hwrite, hread⟩

/-- An arm whose condition holds is the selected one: no earlier test of R93 succeeds. -/
theorem selectArm_of_when {e : BitVec 4} {c : ArmContext} {a : Arm} (h : a.When e c) : selectArm e c = a := by
  cases a
  case spurious k =>
    obtain ⟨rfl, hv⟩ := h
    exact if_pos hv
  case faultArbLost => obtain ⟨hv, rfl⟩ := h; simp [selectArm, hv]
  case faultBusError => obtain ⟨hv, rfl⟩ := h; simp [selectArm, hv]
  case nackAddr => obtain ⟨hv, rfl, hs⟩ := h; simp [selectArm, hv, hs]
  case nackData => obtain ⟨hv, rfl, hs⟩ := h; simp [selectArm, hv, hs]
  case stopDone => obtain ⟨hv, rfl, hs⟩ := h; simp [selectArm, hv, hs]
  case writeNextAddrAck => obtain ⟨hv, rfl, hd, hs, hlt⟩ := h; simp [selectArm, hv, hd, hs, BitVec.lt_def.mpr hlt]
  case writeNextDataAck => obtain ⟨hv, rfl, hd, hs, hlt⟩ := h; simp [selectArm, hv, hd, hs, BitVec.lt_def.mpr hlt]
  case writeDoneAddrAck => obtain ⟨hv, rfl, hd, hs, heq⟩ := h; simp [selectArm, hv, hd, hs, heq]
  case writeDoneDataAck => obtain ⟨hv, rfl, hd, hs, heq⟩ := h; simp [selectArm, hv, hd, hs, heq]
  case readFirst => obtain ⟨hv, rfl, hd, hs⟩ := h; simp [selectArm, hv, hd, hs]
  case readByte => obtain ⟨hv, rfl, hd, hs⟩ := h; simp [selectArm, hv, hd, hs]
  case ignored k =>
    obtain ⟨rfl, hv, h6, h7, hnack, hstop, hwrite, hread⟩ := h
    unfold selectArm
    rw [if_neg (by simp [hv]), if_neg h6, if_neg h7, if_neg fun ⟨he, hs⟩ => hnack ⟨.inl he, hs⟩,
      if_neg fun ⟨he, hs⟩ => hnack ⟨.inr he, hs⟩, if_neg hstop,
      if_neg fun ⟨hd, he, hs, hlt⟩ => hwrite ⟨hd, .inl ⟨he, hs⟩, Nat.le_of_lt hlt⟩,
      if_neg fun ⟨hd, he, hs, hlt⟩ => hwrite ⟨hd, .inr ⟨he, hs⟩, Nat.le_of_lt hlt⟩,
      if_neg fun ⟨hd, he, hs, heq⟩ => hwrite ⟨hd, .inl ⟨he, hs⟩, heq ▸ Nat.le_refl _⟩,
      if_neg fun ⟨hd, he, hs, heq⟩ => hwrite ⟨hd, .inr ⟨he, hs⟩, heq ▸ Nat.le_refl _⟩,
      if_neg fun ⟨hd, he, hs⟩ => hread ⟨hd, .inl ⟨he, hs⟩⟩, if_neg fun ⟨hd, he, hs⟩ => hread ⟨hd, .inr ⟨he, hs⟩⟩]

/-- Which arm R93 selects: the conditions are exclusive and cover everything. -/
theorem selectArm_eq_iff (e : BitVec 4) (c : ArmContext) (a : Arm) : selectArm e c = a ↔ a.When e c := by
  refine ⟨fun h => ?_, selectArm_of_when⟩
  obtain ⟨b, hb⟩ := exists_arm_when e c
  obtain rfl : a = b := h.symm.trans (selectArm_of_when hb)
  exact hb

/-- Settles O5: the clauses are the conditions of `Arm.When`. -/
theorem armsAreSelectedByTheirRows : Obligations.ArmsAreSelectedByTheirRows := by
  intro e c
  have row := selectArm_eq_iff e c
  exact ⟨(row _).trans (and_iff_right rfl), row _, row _, row _, row _, row _, row _, row _, row _, row _, row _, row _,
    (row _).trans (and_iff_right rfl)⟩

end Sys2Proof

namespace Sys2Proof.Machine

-- The handler step and its arms (R84 to R93) -----------------------------------------------------------------------

theorem exec_armInstr (a : Arm) (s : State) : exec a.instr s = .next (runArm a s) := by cases a <;> rfl

theorem exec_handler (s : State) : exec .handler s = .next (runArm (selectArm s.link.evCode (armContext s)) s) := rfl

/-- Settles O33: both run the one body, and every arm keeps the frame. -/
theorem handlerRunsTheSelectedArm : Obligations.HandlerRunsTheSelectedArm := by
  intro s
  have f := runArm_frame (selectArm s.link.evCode (armContext s)) s
  exact ⟨_, exec_handler s, exec_armInstr _ s, f.evPending, f.evCode, f.line, f.timer, f.bAdd, f.bSet⟩

/-- Settles O30: the rows of an arm share its body, whose updates are the ones listed. -/
theorem armsWithoutDataWriteTheirElements : Obligations.ArmsWithoutDataWriteTheirElements := by
  intro s e
  refine ⟨fun i hi => ?dropped, fun i hi => ?fault, rfl, fun i hi => ?nack, fun i hi => ?writeDone, rfl⟩
  case dropped =>
    obtain rfl | rfl := by simpa using hi
    · exact exec_armInstr (.spurious e) s
    · exact exec_armInstr (.ignored e) s
  case fault =>
    obtain rfl | rfl := by simpa using hi
    · exact exec_armInstr .faultArbLost s
    · exact exec_armInstr .faultBusError s
  case nack =>
    obtain rfl | rfl := by simpa using hi
    · exact exec_armInstr .nackAddr s
    · exact exec_armInstr .nackData s
  case writeDone =>
    obtain rfl | rfl := by simpa using hi
    · exact exec_armInstr .writeDoneAddrAck s
    · exact exec_armInstr .writeDoneDataAck s

/-- The handler step is the operation of its stage only where it is enabled (R6 stage 4, R82). -/
theorem handlerEnabled_of_currentInstr {s : State} (hs : s.io.stage = .handler) (hi : currentInstr s = some .handler) :
    handlerEnabled s = true := by
  by_contra h
  simp [currentInstr, hs, h] at hi

/-- Settles O56: a reachable state is `Consistent`, so the event still pending at the handler step fits the transfer, and
a fitting event selects neither of the two arms. -/
theorem noOpArmsAreUnreachable : Obligations.NoOpArmsAreUnreachable := by
  intro s hr hs hi e
  have h := hr.consistent
  obtain ⟨-, hev, -⟩ := (handlerEnabled_iff s).mp (handlerEnabled_of_currentInstr hs hi)
  obtain ⟨r, -, fits⟩ := h.aligned.of_evPending (h.early hev (.inr (.inr hs)))
  have arm := fits.fittingArm r.bufValid h.cursor
  constructor <;> (intro he; rw [he] at arm; cases arm)

-- A run of byte-level exchanges (R99) ------------------------------------------------------------------------------

@[simp] theorem deliver_seq (e : BitVec 4) (byte : Byte) (s : State) : (deliver e byte s).seq = s.seq := rfl
@[simp] theorem deliver_par (e : BitVec 4) (byte : Byte) (s : State) : (deliver e byte s).par = s.par := rfl

/-- One exchange runs the arm whose condition its event meets (R93). -/
theorem serve_cons {e : BitVec 4} {s : State} {a : Arm} (h : a.When e (armContext s)) (byte : Byte)
    (rest : List (BitVec 4 × Byte)) : serve ((e, byte) :: rest) s = serve rest (runArm a (deliver e byte s)) := by
  have run : exec .handler (deliver e byte s) = .next (runArm a (deliver e byte s)) := by
    rw [← selectArm_of_when h]; rfl
  rw [serve, run]

theorem serve_append {l : List (BitVec 4 × Byte)} {s t : State} (h : serve l s = .next t)
    (r : List (BitVec 4 × Byte)) : serve (l ++ r) s = serve r t := by
  induction l generalizing s with
  | nil => cases h; rfl
  | cons x l ih =>
    obtain ⟨e, byte⟩ := x
    obtain ⟨u, hu⟩ := exec_next .handler (deliver e byte s)
    rw [serve, hu] at h
    rw [List.cons_append, serve, hu]
    exact ih h

/-- `t` is in the transfer of direction `d` that `s` has registered (R11). -/
structure InTransfer (s : State) (d : Bool) (t : State) : Prop where
  bufValid : t.seq.bufValid = true
  dir : t.seq.dir = d
  bufStart : t.seq.bufStart = s.seq.bufStart
  length : t.seq.length = s.seq.length
  par : t.par = s.par

/-- The address of byte `k` of the transfer (R47). -/
def slotAddress (s : State) (k : Nat) : Nat := (s.seq.bufStart.toNat + k) % 2 ^ s.par.aw.val

/-- Two bytes of a transfer that fits the buffer space do not lie on each other (R47). -/
theorem slotAddress_inj {s : State} {j k : Nat} (hj : j < 2 ^ s.par.aw.val) (hk : k < 2 ^ s.par.aw.val)
    (h : slotAddress s j = slotAddress s k) : j = k :=
  (Nat.ModEq.add_left_cancel' _ h).eq_of_lt_of_lt hj hk

/-- The end of the stop condition publishes the outcome that was to come (R87). -/
theorem serve_stopDone {s : State} (hv : s.seq.bufValid = true) (hs : s.seq.state = .stopping) (byte : Byte) :
    ∃ t, serve [(evStopDone, byte)] s = .next t ∧ t.seq.outcome = s.seq.finalOutcome ∧ t.seq.pending = false ∧
      t.seq.state = .idle ∧ t.seq.idx = s.seq.idx ∧ t.buffer = s.buffer := by
  have row : Arm.stopDone.When evStopDone (armContext s) := ⟨hv, rfl, hs⟩
  exact ⟨_, serve_cons row byte [], rfl, rfl, rfl, rfl, rfl⟩

-- A write transfer (R98 (c), (e)) ----------------------------------------------------------------------------------

/-- In the write of `s`, `k` bytes have been handed over and the acknowledge `e` is due. -/
structure AwaitsAck (s : State) (e : BitVec 4) (k : Nat) (t : State) : Prop where
  transfer : InTransfer s false t
  due : e = evAddrAck ∧ t.seq.state = .addressing ∨ e = evDataAck ∧ t.seq.state = .writing
  cursor : t.seq.idx.toNat = k
  buffer : t.buffer = s.buffer

/-- In the write of `s`, byte `k` has just been handed over to be sent (R88). -/
structure HandedOver (s : State) (k : Nat) (t : State) : Prop where
  byte : ∃ a : BufAddr, a.toNat = slotAddress s k ∧ t.link.dreg = memRead a s.buffer
  action : t.link.actCode = actSend ∧ t.link.actValid = true
  writing : t.seq.state = .writing
  awaits : AwaitsAck s evDataAck (k + 1) t

/-- While a byte is left, an acknowledge hands over the next one (R88). -/
theorem AwaitsAck.handOver {s u : State} {e : BitVec 4} {k : Nat} (h : AwaitsAck s e k u)
    (hk : k < s.seq.length.toNat) : ∃ t, serve [(e, 0)] u = .next t ∧ HandedOver s k t := by
  obtain ⟨⟨hv, hd, hstart, hlength, hpar⟩, due, hidx, hbuf⟩ := h
  have left : u.seq.idx.toNat < u.seq.length.toNat := by rw [hidx, hlength]; exact hk
  have run : serve [(e, 0)] u = .next (writeNextArm (deliver e 0 u)) := by
    rcases due with ⟨rfl, hs⟩ | ⟨rfl, hs⟩
    · exact serve_cons (a := .writeNextAddrAck) ⟨hv, rfl, hd, hs, left⟩ 0 []
    · exact serve_cons (a := .writeNextDataAck) ⟨hv, rfl, hd, hs, left⟩ 0 []
  have moved : (u.seq.idx + 1).toNat = k + 1 := by rw [toNat_succ_of_lt left, hidx]
  have address : (bufferAddress (deliver e 0 u)).toNat = slotAddress s k := by
    rw [bufferAddress_toNat, deliver_seq, deliver_par, hstart, hpar, hidx, slotAddress]
  exact ⟨_, run, ⟨_, address, congrArg (memRead _) hbuf⟩, ⟨rfl, rfl⟩, rfl,
    ⟨hv, hd, hstart, hlength, hpar⟩, .inr ⟨rfl, rfl⟩, moved, hbuf⟩

/-- With no byte left, an acknowledge begins the stop, with success to come (R89). -/
theorem AwaitsAck.beginStop {s u : State} {e : BitVec 4} (h : AwaitsAck s e s.seq.length.toNat u) :
    ∃ t, serve [(e, 0)] u = .next t ∧ t.seq.bufValid = true ∧ t.seq.state = .stopping ∧
      t.seq.finalOutcome = .success ∧ t.seq.idx = s.seq.length ∧ t.buffer = s.buffer := by
  obtain ⟨⟨hv, hd, -, hlength, -⟩, due, hidx, hbuf⟩ := h
  have atEnd : u.seq.idx = s.seq.length := BitVec.eq_of_toNat_eq hidx
  have run : serve [(e, 0)] u = .next (writeDoneArm (deliver e 0 u)) := by
    rcases due with ⟨rfl, hs⟩ | ⟨rfl, hs⟩
    · exact serve_cons (a := .writeDoneAddrAck) ⟨hv, rfl, hd, hs, atEnd.trans hlength.symm⟩ 0 []
    · exact serve_cons (a := .writeDoneDataAck) ⟨hv, rfl, hd, hs, atEnd.trans hlength.symm⟩ 0 []
  exact ⟨_, run, hv, rfl, rfl, atEnd, hbuf⟩

/-- The address and `k` bytes acknowledged: byte `k` is on its way. By induction on `k`. -/
theorem serve_acks_handOver {s : State} (h : AwaitsAck s evAddrAck 0 s) {k : Nat} (hk : k < s.seq.length.toNat) :
    ∃ t, serve ((evAddrAck, 0) :: List.replicate k (evDataAck, 0)) s = .next t ∧ HandedOver s k t := by
  induction k with
  | zero => exact h.handOver hk
  | succ k ih =>
    obtain ⟨u, hu, sent⟩ := ih (Nat.lt_of_succ_lt hk)
    rw [List.replicate_succ', ← List.cons_append, serve_append hu]
    exact sent.awaits.handOver hk

/-- The address and every byte acknowledged: the stop begins, also where there is no byte. -/
theorem serve_acks_beginStop {s : State} (h : AwaitsAck s evAddrAck 0 s) :
    ∃ t, serve ((evAddrAck, 0) :: List.replicate s.seq.length.toNat (evDataAck, 0)) s = .next t ∧
      t.seq.bufValid = true ∧ t.seq.state = .stopping ∧ t.seq.finalOutcome = .success ∧ t.seq.idx = s.seq.length ∧
      t.buffer = s.buffer := by
  cases hl : s.seq.length.toNat with
  | zero => exact (hl.symm ▸ h : AwaitsAck s evAddrAck s.seq.length.toNat s).beginStop
  | succ k =>
    obtain ⟨u, hu, sent⟩ := serve_acks_handOver h (k := k) (by omega)
    rw [List.replicate_succ', ← List.cons_append, serve_append hu]
    exact (hl.symm ▸ sent.awaits : AwaitsAck s evDataAck s.seq.length.toNat u).beginStop

/-- Settles O34: the bytes by induction on the acknowledges, then the stop that the last one begins. -/
theorem acknowledgedWriteSendsTheBuffer : Obligations.AcknowledgedWriteSendsTheBuffer := by
  intro s hv _ hs hd hidx
  have start : AwaitsAck s evAddrAck 0 s :=
    ⟨⟨hv, hd, rfl, rfl, rfl⟩, .inl ⟨rfl, hs⟩, by rw [hidx]; rfl, rfl⟩
  refine ⟨fun k hk => ?_, ?_⟩
  · obtain ⟨t, ht, ⟨a, ha, hdreg⟩, ⟨hcode, hact⟩, hwriting, awaits⟩ := serve_acks_handOver start hk
    exact ⟨t, a, ht, ha, hdreg, awaits.cursor, hcode, hact, hwriting⟩
  · obtain ⟨u, hu, huv, hus, hufinal, huidx, hubuf⟩ := serve_acks_beginStop start
    obtain ⟨t, ht, houtcome, hpending, hstate, htidx, htbuf⟩ := serve_stopDone huv hus 0
    exact ⟨t, (serve_append hu _).trans ht, houtcome.trans hufinal, hpending, hstate, htidx.trans huidx,
      htbuf.trans hubuf⟩

-- A read transfer (R98 (d), (e)) -----------------------------------------------------------------------------------

/-- `m` is the buffer space of `s` with the bytes stored from its `buf_start` on (R47). -/
structure StoredFrom (s : State) (bytes : List Byte) (m : Memory) : Prop where
  stored : ∀ (k : Nat) (a : BufAddr), k < bytes.length → a.toNat = slotAddress s k → bytes[k]? = some (memRead a m)
  kept : ∀ a : BufAddr, (∀ k < bytes.length, a.toNat ≠ slotAddress s k) → memRead a m = memRead a s.buffer

/-- One more byte stored at the next address covers none of the others while the bytes fit the buffer space. -/
theorem StoredFrom.snoc {s : State} {bytes : List Byte} {b : Byte} {m n : Memory} {a : BufAddr}
    (h : StoredFrom s bytes m) (fits : bytes.length < 2 ^ s.par.aw.val) (ha : a.toNat = slotAddress s bytes.length)
    (hn : ∀ k : BufAddr, memRead k n = if k = a then b else memRead k m) : StoredFrom s (bytes ++ [b]) n := by
  constructor
  · intro k c hk hc
    rw [List.length_append, List.length_singleton] at hk
    rcases Nat.lt_succ_iff_lt_or_eq.mp hk with earlier | rfl
    · have other : c ≠ a := by
        rintro rfl
        exact earlier.ne (slotAddress_inj (earlier.trans fits) fits (hc.symm.trans ha))
      rw [List.getElem?_append_left earlier, hn, if_neg other]
      exact h.stored k c earlier hc
    · have same : c = a := BitVec.eq_of_toNat_eq (hc.trans ha.symm)
      rw [List.getElem?_concat_length, hn, if_pos same]
  · intro c hc
    rw [List.length_append, List.length_singleton] at hc
    have other : c ≠ a := by
      rintro rfl
      exact hc bytes.length (Nat.lt_succ_self _) ha
    rw [hn, if_neg other]
    exact h.kept c fun k hk => hc k (Nat.lt_succ_of_lt hk)

/-- In the read of `s`, these bytes have been received: after each the next is asked for, or the last is refused
(R90, R91). -/
structure Received (s : State) (bytes : List Byte) (t : State) : Prop where
  transfer : InTransfer s true t
  cursor : t.seq.idx.toNat = bytes.length
  buffer : StoredFrom s bytes t.buffer
  more : bytes.length < s.seq.length.toNat → t.seq.state = .reading
  answered : bytes ≠ [] → t.link.actValid = true ∧
    t.link.actCode = if bytes.length < s.seq.length.toNat then actAckRecv else actNackStop
  ended : bytes ≠ [] → ¬bytes.length < s.seq.length.toNat → t.seq.state = .stopping ∧ t.seq.finalOutcome = .success

/-- While a slot is left, the byte received is stored in it and answered (R91). -/
theorem Received.snoc {s u : State} {bytes : List Byte} (h : Received s bytes u)
    (slot : bytes.length < s.seq.length.toNat) (fits : bytes.length < 2 ^ s.par.aw.val) (b : Byte) :
    ∃ t, serve [(evDataRcvd, b)] u = .next t ∧ Received s (bytes ++ [b]) t := by
  obtain ⟨⟨hv, hd, hstart, hlength, hpar⟩, hidx, stored, more, -, -⟩ := h
  have row : Arm.readByte.When evDataRcvd (armContext u) := ⟨hv, rfl, hd, more slot⟩
  have left : u.seq.idx < u.seq.length := by rw [BitVec.lt_def, hidx, hlength]; exact slot
  have moved : (u.seq.idx + 1).toNat = (bytes ++ [b]).length := by
    rw [toNat_succ_of_lt left, hidx, List.length_append, List.length_singleton]
  have asksMore : u.seq.idx + 1 < u.seq.length ↔ (bytes ++ [b]).length < s.seq.length.toNat := by
    rw [BitVec.lt_def, moved, hlength]
  have address : (bufferAddress (deliver evDataRcvd b u)).toNat = slotAddress s bytes.length := by
    rw [bufferAddress_toNat, deliver_seq, deliver_par, hstart, hpar, hidx, slotAddress]
  have memory := stored.snoc fits address fun k => memRead_memWrite _ k b u.buffer
  refine ⟨_, serve_cons row b [], ?_⟩
  rw [runArm]
  rcases readByteArm_cases (deliver evDataRcvd b u) with ⟨-, notLast, e⟩ | ⟨-, last, e⟩ | ⟨noSlot, -⟩
  · have wanted := asksMore.mp notLast
    rw [e]
    exact ⟨⟨hv, hd, hstart, hlength, hpar⟩, moved, memory, fun _ => more slot,
      fun _ => ⟨rfl, (if_pos wanted).symm⟩, fun _ h => absurd wanted h⟩
  · have full := mt asksMore.mpr last
    rw [e]
    exact ⟨⟨hv, hd, hstart, hlength, hpar⟩, moved, memory, fun h => absurd h full,
      fun _ => ⟨rfl, (if_neg full).symm⟩, fun _ _ => ⟨rfl, rfl⟩⟩
  · exact absurd left noSlot

/-- The address acknowledged: the first byte is asked for, and nothing is stored yet (R90). -/
theorem serve_readFirst {s : State} (hv : s.seq.bufValid = true) (hs : s.seq.state = .addressing)
    (hd : s.seq.dir = true) (hidx : s.seq.idx = 0) :
    ∃ t, serve [(evAddrAck, 0)] s = .next t ∧ Received s [] t := by
  have row : Arm.readFirst.When evAddrAck (armContext s) := ⟨hv, rfl, hd, hs⟩
  have cursor : s.seq.idx.toNat = 0 := by rw [hidx]; rfl
  exact ⟨_, serve_cons row 0 [], ⟨hv, hd, rfl, rfl, rfl⟩, cursor, ⟨nofun, fun _ _ => rfl⟩, fun _ => rfl,
    absurd rfl, absurd rfl⟩

/-- Any bytes that fit the slots and the buffer space are received one after another. By induction on the last one. -/
theorem serve_received {s u : State} (h : serve [(evAddrAck, 0)] s = .next u) (start : Received s [] u)
    {bytes : List Byte} (slots : bytes.length ≤ s.seq.length.toNat) (fits : bytes.length ≤ 2 ^ s.par.aw.val) :
    ∃ t, serve ((evAddrAck, 0) :: bytes.map fun b => (evDataRcvd, b)) s = .next t ∧ Received s bytes t := by
  induction bytes using List.reverseRecOn with
  | nil => exact ⟨u, h, start⟩
  | append_singleton bytes b ih =>
    rw [List.length_append, List.length_singleton] at slots fits
    obtain ⟨v, hv, received⟩ := ih (Nat.le_of_succ_le slots) (Nat.le_of_succ_le fits)
    rw [List.map_append, ← List.cons_append, serve_append hv]
    exact received.snoc slots fits b

/-- Settles O35: the bytes received one by one, the answer to each, and the stop that follows the last. -/
theorem readStoresTheReceivedBytes : Obligations.ReadStoresTheReceivedBytes := by
  intro s bytes hv _ hs hd hidx hlen hpos fits
  obtain ⟨u, hu, start⟩ := serve_readFirst hv hs hd hidx
  refine ⟨fun k hk hle => ?_, ?_⟩
  · have taken : (bytes.take k).length = k := List.length_take_of_le hle
    have some_taken : bytes.take k ≠ [] := List.ne_nil_of_length_pos (by omega)
    obtain ⟨t, ht, received⟩ := serve_received hu start (bytes := bytes.take k) (by omega) (by omega)
    obtain ⟨hact, hcode⟩ := received.answered some_taken
    rw [taken, ← hlen] at hcode
    exact ⟨t, ht, hact, hcode, received.cursor.trans taken⟩
  · have some_bytes : bytes ≠ [] := List.ne_nil_of_length_pos hpos
    obtain ⟨v, hv, received⟩ := serve_received hu start hlen.le fits
    obtain ⟨hstopping, hfinal⟩ := received.ended some_bytes hlen.not_lt
    obtain ⟨t, ht, houtcome, hpending, hstate, -, hbuf⟩ := serve_stopDone received.transfer.bufValid hstopping 0
    refine ⟨t, (serve_append hv _).trans ht, houtcome.trans hfinal, hpending, hstate, ?_⟩
    rw [hbuf]
    exact ⟨received.buffer.stored, received.buffer.kept⟩

end Sys2Proof.Machine

/-! Proofs of the family 41_line_engine: the detector, the end of each phase as an equation, what a line step can do to the
line engine, and how long a phase lasts. -/

namespace Sys2Proof.Machine

-- The detector and the monitor (R111, R127) ------------------------------------------------------------------------

/-- SDA changes while SCL stays high: a start or a stop condition (R111). -/
theorem startOrStop_iff (s : State) : (startDet s || stopDet s) = true ↔
    s.line.sclQ = true ∧ s.io.sclIn = true ∧ s.line.sdaQ ≠ s.io.sdaIn := by
  have levels : ∀ a b c d : Bool,
      ((a && b && c && !d) || (a && b && !c && d)) = true ↔ a = true ∧ b = true ∧ c ≠ d := by decide
  exact levels _ _ _ _

theorem noStartOrStop_iff (s : State) : (startDet s || stopDet s) = false ↔
    s.line.sclQ = false ∨ s.io.sclIn = false ∨ s.line.sdaQ = s.io.sdaIn := by
  rw [← Bool.not_eq_true, startOrStop_iff, not_and_or, not_and_or, not_not, Bool.not_eq_true, Bool.not_eq_true]

/-- Once the detector has seen the wires, the same wires are no condition. -/
theorem noStartOrStop_of_seen {s : State} (h : s.line.sdaQ = s.io.sdaIn) : (startDet s || stopDet s) = false :=
  (noStartOrStop_iff s).mpr (.inr (.inr h))

/-- A start condition leaves SDA low and a stop condition high, so `busy_det` is its inverse (R111). -/
theorem detector_startOrStop {s : State} (h : (startDet s || stopDet s) = true) :
    detector s = { s with line := { s.line with
      busyDet := !s.io.sdaIn, sdaQ := s.io.sdaIn, sclQ := s.io.sclIn } } := by
  obtain ⟨hq, hin, hsda⟩ := (startOrStop_iff s).mp h
  have busy : (detector s).line.busyDet = !s.io.sdaIn := by
    rw [detector_line_busyDet, startDet, stopDet, hq, hin, Bool.eq_not.mpr hsda]
    cases s.io.sdaIn <;> rfl
  rw [(detector_observed s).1, busy]

theorem detector_noStartOrStop {s : State} (h : (startDet s || stopDet s) = false) :
    detector s = { s with line := { s.line with sdaQ := s.io.sdaIn, sclQ := s.io.sclIn } } := by
  obtain ⟨hstart, hstop⟩ := Bool.or_eq_false_iff.mp h
  have busy : (detector s).line.busyDet = s.line.busyDet := by simp [hstart, hstop]
  rw [(detector_observed s).1, busy]

/-- The bus-error monitor comes before the phase timer (R127, R130). -/
theorem lineStepOp_busError {s : State} (hp : s.line.ph = .q3 ∨ s.line.ph = .q4)
    (h : (startDet s || stopDet s) = true) : lineStepOp s = abort evBusError (detector s) := by
  rw [lineStepOp_counting (fun k => by simp [k] at hp) (fun k => by simp [k] at hp), h]
  rcases countPhase_cases true (detector s) with ⟨-, -, e⟩ | ⟨unwatched, -⟩
  · exact e
  · exact absurd ⟨hp, rfl⟩ unwatched

/-- A held SCL is no condition, and the phase that waits for it does not count (R113). -/
theorem lineStepOp_stretched {s : State} (hp : s.line.ph = .q3 ∨ s.line.ph = .sp2) (h : s.io.sclIn = false) :
    lineStepOp s = { detector s with line := { (detector s).line with qcnt := 0 } } := by
  have quiet := (noStartOrStop_iff s).mpr (.inr (.inl h))
  rw [lineStepOp_counting (fun k => by simp [k] at hp) (fun k => by simp [k] at hp), quiet]
  rcases countPhase_cases false (detector s) with ⟨-, bad, -⟩ | ⟨-, ⟨-, -, e⟩ | ⟨unheld, -⟩ | ⟨unheld, -⟩⟩
  · cases bad
  · exact e
  · exact absurd ⟨hp, h⟩ unheld
  · exact absurd ⟨hp, h⟩ unheld

/-- A counting phase that the monitor lets pass, that waits for nothing and is not over, counts (R113). -/
theorem lineStepOp_counts {s : State} (hi : s.line.ph ≠ .idle) (hh : s.line.ph ≠ .hold)
    (hw : (s.line.ph = .q3 ∨ s.line.ph = .q4) → (startDet s || stopDet s) = false)
    (hs : (s.line.ph = .q3 ∨ s.line.ph = .sp2) → s.io.sclIn = true) (hq : s.line.qcnt ≠ s.par.qdiv - 1) :
    lineStepOp s = { detector s with line := { (detector s).line with qcnt := s.line.qcnt + 1 } } := by
  rw [lineStepOp_counting hi hh]
  rcases countPhase_cases (startDet s || stopDet s) (detector s) with
    ⟨p, bad, -⟩ | ⟨-, ⟨p, held, -⟩ | ⟨-, -, e⟩ | ⟨-, last, -⟩⟩
  · exact absurd bad (by rw [hw p]; decide)
  · exact absurd (hs p) (Bool.not_eq_true _ ▸ held)
  · exact e
  · exact absurd last hq

-- The end of a phase, phase by phase (R116 to R126) ----------------------------------------------------------------

section PhaseEnds
variable {s : State}

theorem phaseEnd_st0 (h : s.line.ph = .st0) : phaseEnd s = endSt0 s := by simp only [phaseEnd, h]
theorem phaseEnd_st1 (h : s.line.ph = .st1) : phaseEnd s = endSt1 s := by simp only [phaseEnd, h]
theorem phaseEnd_st2 (h : s.line.ph = .st2) : phaseEnd s = endSt2 s := by simp only [phaseEnd, h]
theorem phaseEnd_q1 (h : s.line.ph = .q1) : phaseEnd s = endQ1 s := by simp only [phaseEnd, h]
theorem phaseEnd_q2 (h : s.line.ph = .q2) : phaseEnd s = endQ2 s := by simp only [phaseEnd, h]
theorem phaseEnd_q3 (h : s.line.ph = .q3) : phaseEnd s = endQ3 s := by simp only [phaseEnd, h]
theorem phaseEnd_q4 (h : s.line.ph = .q4) : phaseEnd s = endQ4 s := by simp only [phaseEnd, h]
theorem phaseEnd_sp0 (h : s.line.ph = .sp0) : phaseEnd s = endSp0 s := by simp only [phaseEnd, h]
theorem phaseEnd_sp1 (h : s.line.ph = .sp1) : phaseEnd s = endSp1 s := by simp only [phaseEnd, h]
theorem phaseEnd_sp2 (h : s.line.ph = .sp2) : phaseEnd s = endSp2 s := by simp only [phaseEnd, h]
theorem phaseEnd_sp3 (h : s.line.ph = .sp3) : phaseEnd s = endSp3 s := by simp only [phaseEnd, h]

theorem endSt0_lost (h : s.io.sdaIn = false ∨ s.io.sclIn = false) : endSt0 s = abort evArbLost s :=
  if_pos (by simpa using h)

theorem endSt0_won (hd : s.io.sdaIn = true) (hc : s.io.sclIn = true) :
    endSt0 s = enterPhase .st1 (driveSda false s) := if_neg (by simp [hd, hc])

theorem endSp3_free (h : s.io.sdaIn = true) : endSp3 s = raiseEvent evStopDone (enterPhase .idle s) := if_pos h

theorem endSp3_held (h : s.io.sdaIn = false) : endSp3 s = s := if_neg (by simp [h])

/-- The level of a cell that sends a bit is the top bit of the shift register (R119). -/
theorem cellDrive_bit (hu : s.line.unit = .addr ∨ s.line.unit = .tx) (hb : s.line.bitcnt.toNat < 8) :
    cellDrive s = decide (128 ≤ s.line.shreg.toNat) := by
  have top : cellDrive s = s.line.shreg.getLsbD 7 := by
    rcases hu with hu | hu <;> simp only [cellDrive, hu] <;> exact if_pos hb
  exact top.trans ((BitVec.msb_eq_getLsbD_last s.line.shreg).symm.trans (BitVec.msb_eq_decide s.line.shreg))

/-- In the ninth cell of a sent byte SDA is released for the acknowledge bit (R119). -/
theorem cellDrive_ninth (hu : s.line.unit = .addr ∨ s.line.unit = .tx) (hb : s.line.bitcnt.toNat = 8) :
    cellDrive s = true := by
  have past : ¬s.line.bitcnt < 8 := by bv_omega
  rcases hu with hu | hu <;> simp only [cellDrive, hu] <;> exact if_neg past

theorem txBit_iff (s : State) :
    txBit s = true ↔ (s.line.unit = .addr ∨ s.line.unit = .tx) ∧ s.line.bitcnt.toNat < 8 := by
  simp [txBit, BitVec.lt_def]

theorem arbitrationLost_iff (s : State) : arbitrationLost s = true ↔
    (((s.line.unit = .addr ∨ s.line.unit = .tx) ∧ s.line.bitcnt.toNat < 8 ∧ s.line.sdaO = true ∧ s.io.sdaIn = false) ∨
      (s.line.unit = .nack ∧ s.io.sdaIn = false)) := by
  simp [arbitrationLost, txBit_iff, and_assoc]

theorem endQ3_lost (h : arbitrationLost s = true) : endQ3 s = abort evArbLost s := if_pos h

theorem endQ3_kept (h : ¬arbitrationLost s = true) : endQ3 s = enterPhase .q4 (sampleCell s) := if_neg h

theorem sampleCell_bit (hu : s.line.unit = .addr ∨ s.line.unit = .tx) (hb : s.line.bitcnt.toNat < 8) :
    sampleCell s = { s with line := { s.line with shreg := s.line.shreg <<< 1 } } :=
  if_pos ((txBit_iff s).mpr ⟨hu, hb⟩)

theorem sampleCell_ninth (hu : s.line.unit = .addr ∨ s.line.unit = .tx) (hb : s.line.bitcnt.toNat = 8) :
    sampleCell s = { s with line := { s.line with ackbit := s.io.sdaIn } } := by
  have past : ¬txBit s = true := by rw [txBit_iff]; omega
  rw [sampleCell, if_neg past]
  rcases hu with hu | hu <;> simp only [hu]

/-- A received bit comes in at the bottom of the shift register (R121). -/
theorem sampleCell_rx (hu : s.line.unit = .rx) :
    sampleCell s = { s with line := { s.line with shreg := s.line.shreg.shiftConcat s.io.sdaIn } } := by
  have unsent : ¬txBit s = true := by simp [txBit_iff, hu]
  have shifted : s.line.shreg <<< 1 ||| (bit s.io.sdaIn).setWidth 8 = s.line.shreg.shiftConcat s.io.sdaIn := by
    refine BitVec.eq_of_getLsbD_eq fun i hi => ?_
    rw [BitVec.getLsbD_shiftConcat]
    cases i with
    | zero => simp [bit]
    | succ i => simp [bit, hi, BitVec.getLsbD_eq_getElem (Nat.lt_of_succ_lt hi)]
  rw [sampleCell, if_neg unsent, ← shifted]
  simp only [hu]

/-- The sample of a cell the engine drives as a receiver changes nothing (R121). -/
theorem sampleCell_driven (hu : s.line.unit = .ack ∨ s.line.unit = .nack) : sampleCell s = s := by
  have unsent : ¬txBit s = true := by rcases hu with hu | hu <;> simp [txBit_iff, hu]
  rw [sampleCell, if_neg unsent]
  rcases hu with hu | hu <;> simp only [hu]

theorem endCell_next (h : (s.line.unit = .addr ∨ s.line.unit = .tx) ∧ s.line.bitcnt.toNat < 8 ∨
    s.line.unit = .rx ∧ s.line.bitcnt.toNat < 7) : endCell s = nextCell s := by
  rcases h with ⟨hu | hu, hb⟩ | ⟨hu, hb⟩ <;> simp only [endCell, hu] <;> exact if_pos hb

theorem endCell_sent (hu : s.line.unit = .addr ∨ s.line.unit = .tx) (hb : s.line.bitcnt.toNat = 8) :
    endCell s = raiseEvent (sentEvent s) (enterPhase .hold s) := by
  have past : ¬s.line.bitcnt < 8 := by bv_omega
  rcases hu with hu | hu <;> simp only [endCell, hu] <;> exact if_neg past

theorem sentEvent_addr (hu : s.line.unit = .addr) :
    sentEvent s = if s.line.ackbit then evAddrNack else evAddrAck := if_pos hu

theorem sentEvent_tx (hu : s.line.unit = .tx) :
    sentEvent s = if s.line.ackbit then evDataNack else evDataAck := if_neg (by simp [hu])

theorem endCell_received (hu : s.line.unit = .rx) (hb : s.line.bitcnt.toNat = 7) : endCell s =
    raiseEvent evDataRcvd (enterPhase .hold { s with link := { s.link with dreg := s.line.shreg } }) := by
  have past : ¬s.line.bitcnt < 7 := by bv_omega
  simp only [endCell, hu]
  exact if_neg past

theorem endCell_ack (hu : s.line.unit = .ack) :
    endCell s = enterPhase .q1 { s with line := { s.line with unit := .rx, bitcnt := 0 } } := by
  simp only [endCell, hu]

theorem endCell_nack (hu : s.line.unit = .nack) : endCell s = enterPhase .sp0 s := by simp only [endCell, hu]

/-- The step at the end of a phase that nothing watches and that waits for nothing is the detector and then the phase's
end (R130). -/
theorem exec_lineStep_phaseEnd {p : Phase} {t : State} (hq : s.line.qcnt = s.par.qdiv - 1) (hp : s.line.ph = p)
    (free : p ∉ [Phase.idle, .hold, .q3, .q4, .sp2]) (e : phaseEnd (detector s) = t) : exec .lineStep s = .next t := by
  simp only [List.mem_cons, List.not_mem_nil, or_false, not_or] at free
  obtain ⟨idle, hold, q3, q4, sp2⟩ := free
  subst hp e
  exact congrArg Host.Outcome.next
    (lineStepOp_atEnd hq idle hold (fun h => absurd h (by simp [q3, q4])) (fun h => absurd h (by simp [q3, sp2])))

/-- As above for `P_Q3`, with SCL high and no start or stop condition in the step (R121, R127). -/
theorem exec_lineStep_endQ3 {t : State} (hq : s.line.qcnt = s.par.qdiv - 1) (hp : s.line.ph = .q3)
    (hc : s.io.sclIn = true) (quiet : (startDet s || stopDet s) = false) (e : endQ3 (detector s) = t) :
    exec .lineStep s = .next t :=
  congrArg Host.Outcome.next ((lineStepOp_atEnd hq (by simp [hp]) (by simp [hp]) (fun _ => quiet) (fun _ => hc)).trans
    (Eq.trans (phaseEnd_q3 hp) e))

/-- As above for `P_Q4`, with no start or stop condition in the step (R122, R127). -/
theorem exec_lineStep_endQ4 {t : State} (hq : s.line.qcnt = s.par.qdiv - 1) (hp : s.line.ph = .q4)
    (quiet : (startDet s || stopDet s) = false) (e : endCell (driveScl false (detector s)) = t) :
    exec .lineStep s = .next t :=
  congrArg Host.Outcome.next ((lineStepOp_atEnd hq (by simp [hp]) (by simp [hp]) (fun _ => quiet) (by simp [hp])).trans
    (Eq.trans (phaseEnd_q4 hp) e))

/-- As above for `P_SP2`, with SCL high (R125). -/
theorem exec_lineStep_endSp2 (hq : s.line.qcnt = s.par.qdiv - 1) (hp : s.line.ph = .sp2) (hc : s.io.sclIn = true) :
    exec .lineStep s = .next (endSp2 (detector s)) :=
  congrArg Host.Outcome.next ((lineStepOp_atEnd hq (by simp [hp]) (by simp [hp]) (by simp [hp]) (fun _ => hc)).trans
    (phaseEnd_sp2 hp))

end PhaseEnds

-- What a line step does to the line engine -------------------------------------------------------------------------

/-- The line engine `l` at the end of its phase, with SDA read as `sda`: the phase that comes, the outputs it sets, and
the fields of the cell it may write (R116 to R126). -/
inductive PhaseEnded (sda : Bool) (l : LineEngine) : LineEngine → Prop
  /-- Arbitration lost (R116, R121). -/
  | lost (hp : l.ph = .st0 ∨ l.ph = .q3) :
      PhaseEnded sda l { l with sdaO := true, sclO := true, ph := .idle, qcnt := 0 }
  | st0 (hp : l.ph = .st0) : PhaseEnded sda l { l with sdaO := false, ph := .st1, qcnt := 0 }
  | st1 (hp : l.ph = .st1) : PhaseEnded sda l { l with sclO := false, ph := .st2, qcnt := 0 }
  | st2 (hp : l.ph = .st2) (r : Byte) (u : CellUnit) (n : BitVec 4) :
      PhaseEnded sda l { l with shreg := r, unit := u, bitcnt := n, ph := .q1, qcnt := 0 }
  | q1 (hp : l.ph = .q1) (b : Bool) : PhaseEnded sda l { l with sdaO := b, ph := .q2, qcnt := 0 }
  | q2 (hp : l.ph = .q2) : PhaseEnded sda l { l with sclO := true, ph := .q3, qcnt := 0 }
  | q3 (hp : l.ph = .q3) (r : Byte) (b : Bool) :
      PhaseEnded sda l { l with shreg := r, ackbit := b, ph := .q4, qcnt := 0 }
  | q4 (hp : l.ph = .q4) (u : CellUnit) (n : BitVec 4) (p : Phase) (next : p = .q1 ∨ p = .hold ∨ p = .sp0) :
      PhaseEnded sda l { l with sclO := false, unit := u, bitcnt := n, ph := p, qcnt := 0 }
  | sp0 (hp : l.ph = .sp0) : PhaseEnded sda l { l with sdaO := false, ph := .sp1, qcnt := 0 }
  | sp1 (hp : l.ph = .sp1) : PhaseEnded sda l { l with sclO := true, ph := .sp2, qcnt := 0 }
  | sp2 (hp : l.ph = .sp2) : PhaseEnded sda l { l with sdaO := true, ph := .sp3, qcnt := 0 }
  | sp3 (hp : l.ph = .sp3) (free : sda = true) : PhaseEnded sda l { l with ph := .idle, qcnt := 0 }
  /-- SDA is held low (R126). -/
  | held (hp : l.ph = .sp3) (held : sda = false) : PhaseEnded sda l l

/-- What the line engine can do to its own elements in a line step, once the detector has seen the wires (R130). -/
inductive LineMoved (sda : Bool) (l : LineEngine) : LineEngine → Prop
  | stays : LineMoved sda l l
  | counts (n : Nat) : LineMoved sda l { l with qcnt := n }
  | aborts : LineMoved sda l { l with sdaO := true, sclO := true, ph := .idle, qcnt := 0 }
  /-- `A_START_ADDR` (R131). -/
  | starts (hp : l.ph = .idle) : LineMoved sda l { l with ph := .st0, qcnt := 0 }
  /-- The actions that begin a cell (R132 to R135). -/
  | cell (hp : l.ph = .hold) (r : Byte) (u : CellUnit) (n : BitVec 4) :
      LineMoved sda l { l with shreg := r, unit := u, bitcnt := n, ph := .q1, qcnt := 0 }
  /-- `A_STOP` (R136). -/
  | stops (hp : l.ph = .hold) : LineMoved sda l { l with sdaO := false, ph := .sp1, qcnt := 0 }
  | ends {l' : LineEngine} (h : PhaseEnded sda l l') : LineMoved sda l l'

/-- The end of a cell writes the unit, the cell and the phase (R122). -/
theorem endCell_line (s : State) : ∃ u n p, (p = Phase.q1 ∨ p = .hold ∨ p = .sp0) ∧
    (endCell s).line = { s.line with unit := u, bitcnt := n, ph := p, qcnt := 0 } := by
  unfold endCell
  cases s.line.unit <;> dsimp only
  case addr => split <;> exact ⟨_, _, _, by simp, rfl⟩
  case tx => split <;> exact ⟨_, _, _, by simp, rfl⟩
  case rx => split <;> exact ⟨_, _, _, by simp, rfl⟩
  case ack => exact ⟨_, _, _, .inl rfl, rfl⟩
  case nack => exact ⟨_, _, _, .inr (.inr rfl), rfl⟩

theorem phaseEnd_line {s : State} (hi : s.line.ph ≠ .idle) (hh : s.line.ph ≠ .hold) :
    PhaseEnded s.io.sdaIn s.line (phaseEnd s).line := by
  cases hp : s.line.ph with
  | idle => exact absurd hp hi
  | hold => exact absurd hp hh
  | st0 =>
    rw [phaseEnd_st0 hp, endSt0]
    split
    · exact .lost (.inl hp)
    · exact .st0 hp
  | st1 => rw [phaseEnd_st1 hp]; exact .st1 hp
  | st2 => rw [phaseEnd_st2 hp]; exact .st2 hp ..
  | q1 => rw [phaseEnd_q1 hp]; exact .q1 hp _
  | q2 => rw [phaseEnd_q2 hp]; exact .q2 hp
  | q3 =>
    rw [phaseEnd_q3 hp, endQ3]
    split
    · exact .lost (.inr hp)
    · obtain ⟨r, b, e⟩ := sampleCell_frame s
      rw [e]
      exact .q3 hp r b
  | q4 =>
    rw [phaseEnd_q4 hp, endQ4]
    obtain ⟨u, n, p, next, e⟩ := endCell_line (driveScl false s)
    rw [e]
    exact .q4 hp u n p next
  | sp0 => rw [phaseEnd_sp0 hp]; exact .sp0 hp
  | sp1 => rw [phaseEnd_sp1 hp]; exact .sp1 hp
  | sp2 => rw [phaseEnd_sp2 hp]; exact .sp2 hp
  | sp3 =>
    rw [phaseEnd_sp3 hp]
    cases hd : s.io.sdaIn with
    | true => rw [endSp3_free hd]; exact .sp3 hp rfl
    | false => rw [endSp3_held hd]; exact .held hp rfl

theorem countPhase_line {s : State} (bad : Bool) (hi : s.line.ph ≠ .idle) (hh : s.line.ph ≠ .hold) :
    LineMoved s.io.sdaIn s.line (countPhase bad s).line := by
  rcases countPhase_cases bad s with ⟨-, -, e⟩ | ⟨-, ⟨-, -, e⟩ | ⟨-, -, e⟩ | ⟨-, -, e⟩⟩ <;> rw [e]
  · exact .aborts
  · exact .counts 0
  · exact .counts _
  · exact .ends (phaseEnd_line hi hh)

/-- An action moves the line engine where its ways in `P_IDLE` and in `P_HOLD` do. -/
theorem takeAction_line {f g : State → State} {s : State} {b : Bool}
    (idle : s.line.ph = .idle → LineMoved b s.line (f (takeLatched s)).line)
    (hold : s.line.ph = .hold → LineMoved b s.line (g { takeLatched s with line := { s.line with qcnt := 0 } }).line) :
    LineMoved b s.line (takeAction f g s).line := by
  by_cases hi : s.line.ph = .idle
  · rw [takeAction_idle f g hi]
    exact idle hi
  · by_cases hh : s.line.ph = .hold
    · rw [takeAction_hold f g hh]
      exact hold hh
    · rw [takeAction_busy f g hi hh]
      exact .stays

/-- The eight actions by the phase that takes them (R114, R115). -/
theorem runAction_line (b : Bool) (a : BitVec 3) (s : State) : LineMoved b s.line (runAction a s).line := by
  rcases runAction_cases a s with ⟨-, e⟩ | ⟨-, e⟩ | ⟨-, e⟩ | ⟨-, e⟩ | ⟨-, e⟩ | ⟨-, e⟩ | ⟨-, e⟩ <;> rw [e]
  · exact takeAction_line .starts fun _ => .counts 0
  · exact takeAction_line (fun _ => .stays) fun hp => .cell hp ..
  · exact takeAction_line (fun _ => .stays) fun hp => .cell hp s.line.shreg ..
  · exact takeAction_line (fun _ => .stays) fun hp => .cell hp s.line.shreg _ s.line.bitcnt
  · exact takeAction_line (fun _ => .stays) fun hp => .cell hp s.line.shreg _ s.line.bitcnt
  · exact takeAction_line (fun _ => .stays) .stops
  · exact takeAction_line (fun _ => .stays) fun _ => .counts 0

theorem lineStepOp_line (s : State) : LineMoved s.io.sdaIn (detector s).line (lineStepOp s).line := by
  by_cases hw : s.line.ph = .idle ∨ s.line.ph = .hold
  · rw [lineStepOp_waiting hw, takePending]
    split
    · exact runAction_line _ _ _
    · exact .stays
  · obtain ⟨hi, hh⟩ := not_or.mp hw
    rw [lineStepOp_counting hi hh]
    exact countPhase_line (s := detector s) _ hi hh

-- The lines follow the phase (R114 to R126) ------------------------------------------------------------------------

/-- `LinesFollowPhase`, on the line engine alone. -/
def EngineFollowsPhase (l : LineEngine) : Prop :=
  l.sclO = phaseScl l.ph ∧ ∀ b, phaseSda l.ph = some b → l.sdaO = b

theorem linesFollowPhase_iff (s : State) : LinesFollowPhase s ↔ EngineFollowsPhase s.line := Iff.rfl

section FollowsPhase
variable {sda : Bool} {l l' : LineEngine}

/-- Both lines are released when idle (R129, R232). -/
theorem engineFollowsPhase_released (hp : l.ph = .idle) (hd : l.sdaO = true) (hc : l.sclO = true) :
    EngineFollowsPhase l := by
  rw [EngineFollowsPhase, hp]
  exact ⟨hc, fun b hb => hd.trans (Option.some.inj hb)⟩

/-- The outputs of the coming phase are those the end sets or those the ending phase had. -/
theorem EngineFollowsPhase.phaseEnded (h : EngineFollowsPhase l) (k : PhaseEnded sda l l') :
    EngineFollowsPhase l' := by
  obtain ⟨hscl, hsda⟩ := h
  cases k with
  | lost => exact engineFollowsPhase_released rfl rfl rfl
  | st0 hp => rw [hp] at hscl; exact ⟨hscl, fun _ hb => Option.some.inj hb⟩
  | st1 hp => rw [hp] at hsda; exact ⟨rfl, hsda⟩
  | st2 hp => rw [hp] at hscl; exact ⟨hscl, nofun⟩
  | q1 hp => rw [hp] at hscl; exact ⟨hscl, nofun⟩
  | q2 => exact ⟨rfl, nofun⟩
  | q3 hp => rw [hp] at hscl; exact ⟨hscl, nofun⟩
  | q4 hp u n p next => rcases next with rfl | rfl | rfl <;> exact ⟨rfl, nofun⟩
  | sp0 hp => rw [hp] at hscl; exact ⟨hscl, fun _ hb => Option.some.inj hb⟩
  | sp1 hp => rw [hp] at hsda; exact ⟨rfl, hsda⟩
  | sp2 hp => rw [hp] at hscl; exact ⟨hscl, fun _ hb => Option.some.inj hb⟩
  | sp3 hp => rw [hp] at hscl hsda; exact ⟨hscl, hsda⟩
  | held => exact ⟨hscl, hsda⟩

theorem EngineFollowsPhase.lineMoved (h : EngineFollowsPhase l) (k : LineMoved sda l l') : EngineFollowsPhase l' := by
  have ⟨hscl, hsda⟩ := h
  cases k with
  | stays => exact h
  | counts => exact h
  | aborts => exact engineFollowsPhase_released rfl rfl rfl
  | starts hp => rw [hp] at hscl hsda; exact ⟨hscl, hsda⟩
  | cell hp => rw [hp] at hscl; exact ⟨hscl, nofun⟩
  | stops hp => rw [hp] at hscl; exact ⟨hscl, fun _ hb => Option.some.inj hb⟩
  | ends e => exact h.phaseEnded e

end FollowsPhase

theorem lineStepOp_linesFollowPhase {s : State} (h : LinesFollowPhase s) : LinesFollowPhase (lineStepOp s) :=
  EngineFollowsPhase.lineMoved (l := (detector s).line) h (lineStepOp_line s)

/-- Sampling leaves the outputs alone, and reset releases both lines (R230, R232). -/
theorem sampleInputs_linesFollowPhase {s : State} (h : LinesFollowPhase s) : LinesFollowPhase (sampleInputs s) := by
  cases hr : (nextStimulus s).rst with
  | false => rw [sampleInputs_run hr]; exact h
  | true =>
    rw [sampleInputs_reset hr, answerInReset_eq]
    exact engineFollowsPhase_released rfl rfl rfl

/-- No access of the host writes the line engine (R18). -/
theorem HostEffect.line {s u : State} (h : HostEffect s u) : u.line = s.line := by cases h <;> rfl

/-- Settles O52: only the line step and a reset cycle write the line engine. -/
theorem stepKeepsLinesFollowPhase : Obligations.StepKeepsLinesFollowPhase := by
  intro s t h ht
  rw [linesFollowPhase_iff] at h ⊢
  rcases step_stages ht with
    ⟨-, rfl⟩ | ⟨-, rfl⟩ | ⟨-, rfl⟩ | ⟨-, rfl⟩ | ⟨-, -, rfl⟩ | ⟨-, w, u, hu, rfl⟩
  · exact sampleInputs_linesFollowPhase h
  · exact h
  · obtain ⟨tm, a, b, e⟩ := tbStepOp_frame s
    rw [advance_line, e]
    exact h
  · exact lineStepOp_linesFollowPhase h
  · rw [advance_line, (runArm_frame _ s).line]
    exact h
  · rw [advance_line, (access_effect hu).line]
    exact h

-- The detector in a line step (R111) -------------------------------------------------------------------------------

/-- After the detector nothing writes what it keeps (R19). -/
theorem LineMoved.detected {sda : Bool} {l l' : LineEngine} (h : LineMoved sda l l') :
    l'.sdaQ = l.sdaQ ∧ l'.sclQ = l.sclQ ∧ l'.busyDet = l.busyDet := by
  cases h with
  | ends e => cases e <;> exact ⟨rfl, rfl, rfl⟩
  | _ => exact ⟨rfl, rfl, rfl⟩

/-- Settles O38. -/
theorem detectorRunsInEveryLineStep : Obligations.DetectorRunsInEveryLineStep := by
  intro s
  obtain ⟨hsda, hscl, hbusy⟩ := (lineStepOp_line s).detected
  refine ⟨lineStepOp s, rfl, hsda, hscl, fun hq hin hd hl => ?_, fun hq hin hd hl => ?_, fun quiet => ?_⟩
  · rw [hbusy, detector_startOrStop ((startOrStop_iff s).mpr ⟨hq, hin, by simp [hd, hl]⟩)]
    simp [hl]
  · rw [hbusy, detector_startOrStop ((startOrStop_iff s).mpr ⟨hq, hin, by simp [hd, hl]⟩)]
    simp [hl]
  · rw [hbusy, detector_noStartOrStop ((noStartOrStop_iff s).mpr quiet)]

/-- The operation a code selects takes the action of that code (R71). -/
theorem exec_decodeAction (a : BitVec 3) (s : State) : exec (decodeAction a) s = .next (runAction a s) := by
  have codes : ∀ a : BitVec 3, a = 0 ∨ a = 1 ∨ a = 2 ∨ a = 3 ∨ a = 4 ∨ a = 5 ∨ a = 6 ∨ a = 7 := by decide
  rcases codes a with rfl | rfl | rfl | rfl | rfl | rfl | rfl | rfl <;> rfl

/-- Settles O37: in the two waiting phases nothing but the latched action follows the detector. -/
theorem lineStepTakesTheLatchedAction : Obligations.LineStepTakesTheLatchedAction := by
  intro s hp
  have run : exec .lineStep s = .next (takePending (detector s)) := congrArg _ (lineStepOp_waiting hp)
  refine ⟨detector s, detector_observed s, fun empty => ?_, fun valid => ?_⟩
  · exact congrArg _ (lineStepOp_nothingLatched hp empty)
  · exact ⟨_, _, rfl, exec_decodeAction _ _, run.trans (congrArg _ (if_pos valid))⟩

/-- Settles O39: the step's equations with what the detector makes of these wires. -/
theorem busErrorAbortsAndStretchingWaits : Obligations.BusErrorAbortsAndStretchingWaits := by
  refine fun s => ⟨fun hp hq hin hsda => ?_, fun hp held => ?_⟩
  · have seen := (startOrStop_iff s).mpr ⟨hq, hin, hsda⟩
    have e := lineStepOp_busError hp seen
    rw [detector_startOrStop seen] at e
    exact congrArg Host.Outcome.next e
  · have e := lineStepOp_stretched hp held
    rw [detector_noStartOrStop ((noStartOrStop_iff s).mpr (.inr (.inl held)))] at e
    exact congrArg Host.Outcome.next e

-- How long a phase lasts (R113) ------------------------------------------------------------------------------------

/-- The last of `n + 1` times the same operation. -/
theorem execTimes_succ {n : Nat} {i : Instr} {s t : State} (h : execTimes n i s = .next t) :
    execTimes (n + 1) i s = exec i t := by
  induction n generalizing s with
  | zero =>
    rw [← Host.Outcome.next.inj h]
    obtain ⟨u, hu⟩ := exec_next i s
    simp only [execTimes, hu]
  | succ n ih =>
    obtain ⟨u, hu⟩ := exec_next i s
    have step (k : Nat) : execTimes (k + 1) i s = execTimes k i u := by simp only [execTimes, hu]
    rw [step] at h ⊢
    exact ih h

/-- `t` is `s` after `n` counted line steps of its phase; no change of SDA is to come that the monitor would see. -/
structure Counted (s : State) (n : Nat) (t : State) : Prop where
  ph : t.line.ph = s.line.ph
  qcnt : t.line.qcnt = n
  sdaO : t.line.sdaO = s.line.sdaO
  sclO : t.line.sclO = s.line.sclO
  link : t.link = s.link
  io : t.io = s.io
  par : t.par = s.par
  quiet : (t.line.ph = .q3 ∨ t.line.ph = .q4) → (startDet t || stopDet t) = false

/-- A counting phase whose wires neither hold it nor are a condition the monitor watches for. -/
structure Undisturbed (s : State) : Prop where
  notIdle : s.line.ph ≠ .idle
  notHold : s.line.ph ≠ .hold
  unheld : (s.line.ph = .q3 ∨ s.line.ph = .sp2) → s.io.sclIn = true

theorem Counted.undisturbed {s t : State} {n : Nat} (k : Counted s n t) (h : Undisturbed s) : Undisturbed t :=
  ⟨k.ph ▸ h.notIdle, k.ph ▸ h.notHold, by rw [k.ph, k.io]; exact h.unheld⟩

/-- Below `QDIV` the next line step counts on. -/
theorem Counted.succ {s t : State} {n : Nat} (k : Counted s n t) (h : Undisturbed s) (hn : n + 1 < s.par.qdiv) :
    ∃ u, exec .lineStep t = .next u ∧ Counted s (n + 1) u := by
  obtain ⟨hi, hh, hc⟩ := k.undisturbed h
  have below : t.line.qcnt ≠ t.par.qdiv - 1 := by rw [k.qcnt, k.par]; omega
  refine ⟨_, congrArg Host.Outcome.next (lineStepOp_counts hi hh k.quiet hc below), ?_⟩
  exact ⟨k.ph, congrArg Nat.succ k.qcnt, k.sdaO, k.sclO, k.link, k.io, k.par, fun _ => noStartOrStop_of_seen rfl⟩

theorem execTimes_counted {s : State} (h : Undisturbed s) (start : Counted s 0 s) {n : Nat} (hn : n < s.par.qdiv) :
    ∃ t, execTimes n .lineStep s = .next t ∧ Counted s n t := by
  induction n with
  | zero => exact ⟨s, rfl, start⟩
  | succ n ih =>
    obtain ⟨t, ht, k⟩ := ih (Nat.lt_of_succ_lt hn)
    obtain ⟨u, hu, k'⟩ := k.succ h hn
    exact ⟨u, (execTimes_succ ht).trans hu, k'⟩

/-- The end of a phase enters another one, its count at 0, but for `P_SP3` with SDA held low. -/
theorem PhaseEnded.leaves {sda : Bool} {l l' : LineEngine} (h : PhaseEnded sda l l') (hi : l.ph ≠ .idle)
    (hs : ¬(l.ph = .sp3 ∧ sda = false)) : l'.ph ≠ l.ph ∧ l'.qcnt = 0 := by
  cases h with
  | lost => exact ⟨hi.symm, rfl⟩
  | held hp hd => exact absurd ⟨hp, hd⟩ hs
  | q4 hp u n p next => rcases next with rfl | rfl | rfl <;> exact ⟨by simp [hp], rfl⟩
  | _ => exact ⟨by simp [*], rfl⟩

/-- Settles O40: `QDIV - 1` steps count, by induction, and the next one is the phase end. -/
theorem phaseLastsQdivCycles : Obligations.PhaseLastsQdivCycles := by
  intro s hi hh hq hpos hc hw
  have h : Undisturbed s := ⟨hi, hh, hc⟩
  have start : Counted s 0 s :=
    ⟨rfl, hq, rfl, rfl, rfl, rfl, rfl, fun hp => (noStartOrStop_iff s).mpr (hw hp)⟩
  refine ⟨fun n hn => ?_, ?_⟩
  · obtain ⟨t, ht, k⟩ := execTimes_counted h start hn
    exact ⟨t, ht, k.ph, k.qcnt, k.sdaO, k.sclO, k.link⟩
  · obtain ⟨t, ht, k⟩ := execTimes_counted h start (Nat.sub_one_lt_of_lt hpos)
    obtain ⟨hi', hh', hc'⟩ := k.undisturbed h
    have last : t.line.qcnt = t.par.qdiv - 1 := by rw [k.qcnt, k.par]
    have run := (execTimes_succ ht).trans (congrArg Host.Outcome.next (lineStepOp_atEnd last hi' hh' k.quiet hc'))
    rw [Nat.sub_add_cancel hpos] at run
    refine ⟨_, run, ?_⟩
    rw [← k.ph, ← k.io]
    split
    next held =>
      rw [phaseEnd_sp3 (s := detector t) held.1, endSp3_held (s := detector t) held.2]
      exact ⟨held.1, k.qcnt, k.link⟩
    next free => exact (phaseEnd_line (s := detector t) hi' hh').leaves hi' free

-- The ends of the phases (R116 to R126) ----------------------------------------------------------------------------

/-- Settles O41. -/
theorem startConditionPhases : Obligations.StartConditionPhases := by
  intro s hq
  refine ⟨detector s, detector_observed s, fun hp lost => ?_, fun hp hd hc => ?_, fun hp => ?_, fun hp => ?_⟩
  · exact exec_lineStep_phaseEnd hq hp (by decide) (Eq.trans (phaseEnd_st0 hp) (endSt0_lost lost))
  · exact exec_lineStep_phaseEnd hq hp (by decide) (Eq.trans (phaseEnd_st0 hp) (endSt0_won hd hc))
  · exact exec_lineStep_phaseEnd hq hp (by decide) (phaseEnd_st1 hp)
  · exact exec_lineStep_phaseEnd hq hp (by decide) (phaseEnd_st2 hp)

/-- Settles O42. -/
theorem cellDrivesThenReleasesTheClock : Obligations.CellDrivesThenReleasesTheClock := by
  intro s hq
  refine ⟨detector s, detector_observed s, fun hp => ⟨cellDrive s, ?_, cellDrive_bit, cellDrive_ninth, fun hu => ?_,
    fun hu => ?_, fun hu => ?_⟩, fun hp => ?_⟩
  · exact exec_lineStep_phaseEnd hq hp (by decide) (phaseEnd_q1 hp)
  · simp only [cellDrive, hu]
  · simp only [cellDrive, hu]
  · simp only [cellDrive, hu]
  · exact exec_lineStep_phaseEnd hq hp (by decide) (phaseEnd_q2 hp)

/-- Settles O43: the arbitration test, then the sample of each unit, on the state the detector leaves. -/
theorem thirdQuarterSamplesOrLosesArbitration : Obligations.ThirdQuarterSamplesOrLosesArbitration := by
  intro s hq hp hc quiet
  have ends {t : State} (e : endQ3 (detector s) = t) : exec .lineStep s = .next t :=
    exec_lineStep_endQ3 hq hp hc ((noStartOrStop_iff s).mpr (quiet.imp_right .inr)) e
  have samples {t : State} (kept : ¬arbitrationLost s = true) (e : sampleCell (detector s) = t) :
      exec .lineStep s = .next (enterPhase .q4 t) := ends (Eq.trans (endQ3_kept kept) (congrArg _ e))
  refine ⟨detector s, detector_observed s, fun lost => ?_, fun hu hb owned => ?_, fun hu hb => ?_, fun hu => ?_,
    fun hu => ?_⟩
  · exact ends (endQ3_lost ((arbitrationLost_iff s).mpr lost))
  · have kept : ¬arbitrationLost s = true := by
      rw [arbitrationLost_iff]
      rintro (⟨-, -, released, low⟩ | ⟨nack, -⟩)
      · simp [released, low] at owned
      · simp [nack] at hu
    have sent := samples kept (sampleCell_bit (s := detector s) hu hb)
    exact ⟨s.line.shreg <<< 1, by rw [BitVec.toNat_shiftLeft, Nat.shiftLeft_eq], sent⟩
  · have kept : ¬arbitrationLost s = true := by
      rw [arbitrationLost_iff]
      rintro (⟨-, bit, -⟩ | ⟨nack, -⟩)
      · omega
      · simp [nack] at hu
    exact samples kept (sampleCell_ninth hu hb)
  · have kept : ¬arbitrationLost s = true := by simp [arbitrationLost_iff, hu]
    have received := samples kept (sampleCell_rx (s := detector s) hu)
    exact ⟨s.line.shreg.shiftConcat s.io.sdaIn, by rw [BitVec.toNat_shiftConcat, Nat.shiftLeft_eq], received⟩
  · have kept : ¬arbitrationLost s = true := by
      rcases hu with hu | ⟨hu, high⟩ <;> simp [arbitrationLost_iff, *]
    exact samples kept (sampleCell_driven (hu.imp_right And.left))

/-- Settles O44. -/
theorem fourthQuarterEndsTheCell : Obligations.FourthQuarterEndsTheCell := by
  intro s hq hp quiet
  have ends {t : State} (e : endCell (driveScl false (detector s)) = t) : exec .lineStep s = .next t :=
    exec_lineStep_endQ4 hq hp ((noStartOrStop_iff s).mpr quiet) e
  refine ⟨detector s, detector_observed s, fun h => ⟨s.line.bitcnt + 1, by bv_omega, ?_⟩, fun hu hb => ?_,
    fun hu hb => ?_, fun hu hb => ?_, fun hu => ?_, fun hu => ?_⟩
  · exact ends (endCell_next h)
  · exact ends (Eq.trans (endCell_sent (.inl hu) hb) (congrArg (raiseEvent · _) (sentEvent_addr hu)))
  · exact ends (Eq.trans (endCell_sent (.inr hu) hb) (congrArg (raiseEvent · _) (sentEvent_tx hu)))
  · exact ends (endCell_received hu hb)
  · exact ends (endCell_ack hu)
  · exact ends (endCell_nack hu)

/-- Settles O45. -/
theorem stopConditionPhases : Obligations.StopConditionPhases := by
  intro s hq
  refine ⟨detector s, detector_observed s, fun hp => ?_, fun hp => ?_, fun hp hc => ?_, fun hp free => ?_,
    fun hp held => ?_⟩
  · exact exec_lineStep_phaseEnd hq hp (by decide) (phaseEnd_sp0 hp)
  · exact exec_lineStep_phaseEnd hq hp (by decide) (phaseEnd_sp1 hp)
  · exact exec_lineStep_endSp2 hq hp hc
  · exact exec_lineStep_phaseEnd hq hp (by decide) (Eq.trans (phaseEnd_sp3 hp) (endSp3_free free))
  · exact exec_lineStep_phaseEnd hq hp (by decide) (Eq.trans (phaseEnd_sp3 hp) (endSp3_held held))

end Sys2Proof.Machine

/-! Proofs of the family 42_timer_source: the timer's commands, the second counter step case by case, the law of a running
counter, a stopped one, and the tick. -/

namespace Sys2Proof.Machine

-- The commands of the timer (R143, R144, R146, R147) ---------------------------------------------------------------

theorem exec_cmdTStart (s : State) :
    exec .cmdTStart s = .next { s with timer := { s.timer with count := s.timer.tcount, running := true } } := rfl

theorem exec_cmdTStop (s : State) :
    exec .cmdTStop s = .next { s with timer := { s.timer with running := false, tcount := s.timer.count } } := rfl

theorem exec_cmdAckTick (s : State) :
    exec .cmdAckTick s = .next { s with timer := { s.timer with tickPending := false } } := rfl

theorem exec_cmdAckSec (s : State) :
    exec .cmdAckSec s = .next { s with timer := { s.timer with secPending := false } } := rfl

-- The second counter step (R142) -----------------------------------------------------------------------------------

theorem secStepOp_stopped {s : State} (hr : s.timer.running = false) : secStepOp s = s := if_neg (by simp [hr])

theorem secStepOp_top {s : State} (hr : s.timer.running = true) (hc : s.timer.count.toNat = 2 ^ s.par.cw.val - 1) :
    secStepOp s = { s with timer := { s.timer with count := 0, secPending := true } } := (if_pos hr).trans (if_pos hc)

/-- Below its top a count of the width does not leave the width, nor its 16 bits. -/
theorem toNat_count_succ {s : State} (hc : s.timer.count.toNat < 2 ^ s.par.cw.val - 1) :
    (s.timer.count + 1).toNat = s.timer.count.toNat + 1 := by
  have width : 2 ^ s.par.cw.val ≤ 65536 := Nat.le_of_dvd (by decide) (two_pow_width s.par.cw)
  exact BitVec.toNat_add_of_lt (show s.timer.count.toNat + 1 < 65536 by omega)

theorem secStepOp_below {s : State} (hr : s.timer.running = true)
    (hc : s.timer.count.toNat < 2 ^ s.par.cw.val - 1) :
    secStepOp s = { s with timer := { s.timer with count := s.timer.count + 1 } } := by
  have uncut : toCount s (s.timer.count + 1) = s.timer.count + 1 :=
    fit_of_lt (by rw [toNat_count_succ hc]; omega)
  rw [← uncut]
  exact (if_pos hr).trans (if_neg hc.ne)

/-- Settles O21. -/
theorem timerCommandsWriteTheirElements : Obligations.TimerCommandsWriteTheirElements := by
  refine fun s => ⟨exec_cmdTStart s, exec_cmdTStop s, exec_cmdAckTick s, exec_cmdAckSec s, fun running => ?_,
    fun stopped => ?_⟩
  · rw [exec_cmdTStart, ← running]
  · rw [exec_cmdTStop, ← stopped]

/-- Settles O23. -/
theorem secondStepCountsAndOverflows : Obligations.SecondStepCountsAndOverflows :=
  fun s => ⟨fun hr => congrArg Host.Outcome.next (secStepOp_stopped hr),
    fun hr hc => congrArg Host.Outcome.next (secStepOp_top hr hc),
    fun hr hc => ⟨s.timer.count + 1, toNat_count_succ hc, congrArg Host.Outcome.next (secStepOp_below hr hc)⟩⟩

-- The timebase step and the second counter (R140, R142) ------------------------------------------------------------

theorem exec_tbStep (s : State) : exec .tbStep s = .next (tbStepOp s) := rfl

theorem tickDivide_secPending (s : State) : (tickDivide s).timer.secPending = s.timer.secPending := by
  rw [tickDivide_timer]
  split <;> rfl

/-- The counter of a running timer goes on by `n` from `s` to `t`, and its wraps raise the second (R142, R149). -/
structure CountedOn (s : State) (n : Nat) (t : State) : Prop where
  par : t.par = s.par
  running : t.timer.running = true
  count : t.timer.count.toNat = (s.timer.count.toNat + n) % 2 ^ s.par.cw.val
  secPending : t.timer.secPending = true ↔ s.timer.secPending = true ∨ 2 ^ s.par.cw.val ≤ s.timer.count.toNat + n

theorem CountedOn.zero {s : State} (hr : s.timer.running = true) (hc : s.timer.count.toNat < 2 ^ s.par.cw.val) :
    CountedOn s 0 s :=
  ⟨rfl, hr, (Nat.mod_eq_of_lt hc).symm, by simp [Nat.not_le.mpr hc]⟩

theorem CountedOn.count_lt {s t : State} {n : Nat} (k : CountedOn s n t) :
    t.timer.count.toNat < 2 ^ t.par.cw.val := by
  rw [k.count, k.par]
  exact Nat.mod_lt _ (Nat.two_pow_pos _)

/-- A wrap on the way to `a + 1` is one on the way to `a`, or falls in the last count. -/
theorem wrapped_succ_iff (a m : Nat) : (m ≤ a ∨ m ≤ a % m + 1) ↔ m ≤ a + 1 := by
  rcases Nat.lt_or_ge a m with inside | beyond
  · rw [Nat.mod_eq_of_lt inside]; omega
  · omega

theorem CountedOn.succ {s t u : State} {n : Nat} (k : CountedOn s n t) (l : CountedOn t 1 u) :
    CountedOn s (n + 1) u where
  par := l.par.trans k.par
  running := l.running
  count := by rw [l.count, k.count, k.par, Nat.mod_add_mod, Nat.add_assoc]
  secPending := by rw [l.secPending, k.secPending, k.count, k.par, or_assoc, wrapped_succ_iff, Nat.add_assoc]

theorem secStepOp_countedOn {s : State} (hr : s.timer.running = true)
    (hc : s.timer.count.toNat < 2 ^ s.par.cw.val) : CountedOn s 1 (secStepOp s) := by
  rcases Nat.eq_or_lt_of_le (Nat.le_sub_one_of_lt hc) with top | below
  · have wrap : s.timer.count.toNat + 1 = 2 ^ s.par.cw.val := by omega
    rw [secStepOp_top hr top]
    exact ⟨rfl, hr, by rw [wrap, Nat.mod_self]; rfl, by simp [wrap]⟩
  · have inside : s.timer.count.toNat + 1 < 2 ^ s.par.cw.val := by omega
    rw [secStepOp_below hr below]
    exact ⟨rfl, hr, (toNat_count_succ below).trans (Nat.mod_eq_of_lt inside).symm, by simp [Nat.not_le.mpr inside]⟩

/-- The divider leaves the counter to the second counter step (R140). -/
theorem tbStepOp_countedOn {s : State} (hr : s.timer.running = true)
    (hc : s.timer.count.toNat < 2 ^ s.par.cw.val) : CountedOn s 1 (tbStepOp s) := by
  obtain ⟨count, running, -⟩ := tickDivide_counter s
  have par := tickDivide_par s
  obtain ⟨hpar, hrun, hcount, hsec⟩ :=
    secStepOp_countedOn (s := tickDivide s) (running.trans hr) (by rwa [count, par])
  rw [count, par] at hcount
  rw [count, par, tickDivide_secPending] at hsec
  exact ⟨hpar.trans par, hrun, hcount, hsec⟩

theorem execTimes_tbStep_countedOn (n : Nat) {s : State} (hr : s.timer.running = true)
    (hc : s.timer.count.toNat < 2 ^ s.par.cw.val) : ∃ t, execTimes n .tbStep s = .next t ∧ CountedOn s n t := by
  induction n with
  | zero => exact ⟨s, rfl, .zero hr hc⟩
  | succ n ih =>
    obtain ⟨t, run, k⟩ := ih
    exact ⟨tbStepOp t, (execTimes_succ run).trans (exec_tbStep t), k.succ (tbStepOp_countedOn k.running k.count_lt)⟩

/-- Settles O24, by induction on the timebase steps. -/
theorem secondCounterFollowsItsLaw : Obligations.SecondCounterFollowsItsLaw := by
  intro s n hr hc
  obtain ⟨t, run, k⟩ := execTimes_tbStep_countedOn n hr hc
  exact ⟨t, run, k.running, k.count, k.secPending⟩

-- A stopped counter (R144, R179) -----------------------------------------------------------------------------------

/-- Stopped at `c`, with TCOUNT as the stop left it and the second pending or not as `p` says. -/
structure Paused (c : Count) (p : Bool) (s : State) : Prop where
  running : s.timer.running = false
  count : s.timer.count = c
  tcount : s.timer.tcount = c
  secPending : s.timer.secPending = p

theorem Paused.tbStepOp {c : Count} {p : Bool} {s : State} (h : Paused c p s) : Paused c p (tbStepOp s) := by
  obtain ⟨count, running, tcount⟩ := tickDivide_counter s
  have stopped : (tickDivide s).timer.running = false := running.trans h.running
  rw [Machine.tbStepOp, secStepOp_stopped stopped]
  exact ⟨stopped, count.trans h.count, tcount.trans h.tcount, (tickDivide_secPending s).trans h.secPending⟩

theorem Paused.execTimes_tbStep {c : Count} {p : Bool} {n : Nat} {s t : State} (h : Paused c p s)
    (run : execTimes n .tbStep s = .next t) : Paused c p t := by
  induction n generalizing s with
  | zero => exact Host.Outcome.next.inj run ▸ h
  | succ n ih => exact ih h.tbStepOp run

/-- Settles O22: the stop pauses the counter, and every timebase step keeps it so. -/
theorem pauseLosesNoCount : Obligations.PauseLosesNoCount := by
  intro s t u v n stop run start
  have paused : Paused s.timer.count s.timer.secPending t := by
    rw [← Host.Outcome.next.inj stop]
    exact ⟨rfl, rfl, rfl, rfl⟩
  obtain ⟨-, count, tcount, second⟩ := paused.execTimes_tbStep run
  rw [← Host.Outcome.next.inj start]
  exact ⟨count, tcount, tcount, rfl, second⟩

-- The tick (R140, R141) --------------------------------------------------------------------------------------------

theorem tickDivide_top {s : State} (h : s.timer.tdiv = s.par.tickDiv - 1) :
    tickDivide s = tickOp { s with timer := { s.timer with tdiv := 0 } } := if_pos h

theorem tickDivide_below {s : State} (h : s.timer.tdiv ≠ s.par.tickDiv - 1) :
    tickDivide s = { s with timer := { s.timer with tdiv := s.timer.tdiv + 1 } } := if_neg h

/-- A sample reads the line and never the counters, so the other button's sample does not sway it (R161). -/
theorem pressed_buttonSample (b d : Button) (s : State) : pressed b (buttonSample d s) = pressed b s := by
  rw [buttonSample_eq, pressed_withButton]

/-- The sample operation that the level of the line selects is the sample of the button (R160, R161). -/
theorem exec_sample {b : Button} {s t : State} (seen : pressed b t = pressed b s) :
    exec (if buttonLevel b s = activeLevel b s then .bSamplePressed b else .bSampleReleased b) t =
      .next (buttonSample b t) := by
  unfold buttonSample
  rw [seen]
  by_cases h : pressed b s = true
  · rw [if_pos h, if_pos ((pressed_iff b s).mp h)]; rfl
  · rw [if_neg h, if_neg (mt (pressed_iff b s).mpr h)]; rfl

/-- Settles O26: both samples go by the levels of the state before the tick. -/
theorem tickSamplesBothButtons : Obligations.TickSamplesBothButtons := by
  intro s
  have addSample := exec_sample (b := .add) (s := s) (t := { s with timer := { s.timer with tickPending := true } }) rfl
  have setSample := exec_sample (b := .set) (s := s) (pressed_buttonSample .set .add
    { s with timer := { s.timer with tickPending := true } })
  refine ⟨_, tickOp s, addSample, setSample, rfl, ?_⟩
  rw [tickOp_eq]
  exact ⟨rfl, rfl, rfl, rfl, rfl, rfl, rfl⟩

/-- Settles O27: the divider's state lies between the two. -/
theorem timebaseStepDividesThenCounts : Obligations.TimebaseStepDividesThenCounts := by
  refine fun s => ⟨tickDivide s, tbStepOp s, ?_, rfl, exec_tbStep s⟩
  split
  next top => exact congrArg Host.Outcome.next (tickDivide_top top).symm
  next below => exact tickDivide_below below

end Sys2Proof.Machine

/-! Proofs of the family 43_button_classifier: the sample step of a button branch by branch, and the law of a hold. -/

namespace Sys2Proof.Machine

-- The sample step of a button (R162, R163, R164) -------------------------------------------------------------------

theorem exec_bSamplePressed (b : Button) (s : State) :
    exec (.bSamplePressed b) s = .next (withButton b (pressSample (longTicks b s) (buttonOf b s)) s) := rfl

theorem exec_bSampleReleased (b : Button) (s : State) :
    exec (.bSampleReleased b) s = .next (withButton b (releaseSample (buttonOf b s)) s) := rfl

theorem pressSample_pressedSample (lt : Byte) (c : PressCounter) : PressedSample lt c (pressSample lt c) := by
  refine ⟨fun cross => ?_, fun below => ?_⟩
  · rw [pressSample_cross cross]
    exact ⟨rfl, rfl, fun first => by simp [first], fun again => by simp [again]⟩
  · rw [pressSample_count below]
    exact ⟨rfl, rfl, rfl⟩

theorem releaseSample_releasedSample (c : PressCounter) : ReleasedSample c (releaseSample c) := by
  by_cases held : c.active ≠ 0 ∨ c.longFired = true
  · rw [releaseSample_held held]
    exact ⟨rfl, rfl, fun _ => rfl, fun zero unfired => absurd held (by simp [zero, unfired])⟩
  · obtain ⟨zero, unfired⟩ : c.active = 0 ∧ c.longFired = false := by simpa using held
    rw [releaseSample_idle zero unfired]
    exact ⟨rfl, rfl, fun h => absurd h held, fun _ _ => rfl⟩

/-- Settles O28. -/
theorem buttonSamplesFollowTheirBranch : Obligations.ButtonSamplesFollowTheirBranch := fun s =>
  ⟨⟨_, exec_bSamplePressed .add s, pressSample_pressedSample ..⟩,
    ⟨_, exec_bSamplePressed .set s, pressSample_pressedSample ..⟩,
    ⟨_, exec_bSampleReleased .add s, releaseSample_releasedSample _⟩,
    ⟨_, exec_bSampleReleased .set s, releaseSample_releasedSample _⟩⟩

-- The law of a hold (R165, R166) -----------------------------------------------------------------------------------

/-- What the classifier holds for a button after `n` consecutive pressed samples of one hold; before the first of them
the event latch holds anything. -/
structure HeldFor (lt : Byte) (n : Nat) (c : PressCounter) : Prop where
  active : c.active.toNat = n % lt.toNat
  longFired : c.longFired = true ↔ lt.toNat ≤ n
  bev : n ≠ 0 → c.bev = if n = 1 then .pressed else if n = lt.toNat then .longPress else .none

theorem HeldFor.zero {lt : Byte} {c : PressCounter} (hl : 2 ≤ lt.toNat) (ha : c.active = 0)
    (hf : c.longFired = false) : HeldFor lt 0 c where
  active := by rw [ha, Nat.zero_mod]; rfl
  longFired := iff_of_false (by simp [hf]) (by omega)
  bev h := absurd rfl h

/-- The threshold keeps the counter from wrapping, so the bytes meet exactly when the numbers do. -/
theorem HeldFor.crosses_iff {lt : Byte} {n : Nat} {c : PressCounter} (k : HeldFor lt n c) (hl : 2 ≤ lt.toNat) :
    c.active + 1 = lt ↔ n % lt.toNat + 1 = lt.toNat := by
  have inside : c.active.toNat < lt.toNat := k.active ▸ Nat.mod_lt n (by omega)
  rw [← k.active]
  bv_omega

/-- The sample that reaches the threshold: the first such sample of the hold is its `LONG_TICKS`-th. -/
theorem HeldFor.cross {lt : Byte} {n : Nat} {c : PressCounter} (k : HeldFor lt n c) (hl : 2 ≤ lt.toNat)
    (top : n % lt.toNat + 1 = lt.toNat) : HeldFor lt (n + 1) (pressSample lt c) := by
  have atLeast : lt.toNat ≤ n + 1 := by have := Nat.mod_le n lt.toNat; omega
  rw [pressSample_cross ((k.crosses_iff hl).mpr top)]
  refine ⟨?_, by simp [atLeast], fun _ => ?_⟩
  · rw [← Nat.mod_add_mod, top, Nat.mod_self]; rfl
  · rw [if_neg (show n + 1 ≠ 1 by omega)]
    by_cases fired : c.longFired = true
    · have past := k.longFired.mp fired
      rw [if_pos fired, if_neg (by omega)]
    · have first := mt k.longFired.mpr fired
      rw [if_neg fired, if_pos (by omega)]

/-- A sample below the threshold: it is the first of the hold exactly when nothing is counted and nothing fired. -/
theorem HeldFor.count {lt : Byte} {n : Nat} {c : PressCounter} (k : HeldFor lt n c) (hl : 2 ≤ lt.toNat)
    (below : n % lt.toNat + 1 ≠ lt.toNat) : HeldFor lt (n + 1) (pressSample lt c) := by
  have inside : n % lt.toNat < lt.toNat := Nat.mod_lt n (by omega)
  have notReached : n + 1 ≠ lt.toNat := fun reached => below (by rw [Nat.mod_eq_of_lt (by omega), reached])
  rw [pressSample_count (mt (k.crosses_iff hl).mp below)]
  refine ⟨?_, k.longFired.trans (by omega), fun _ => ?_⟩
  · have moved : (c.active + 1).toNat = c.active.toNat + 1 := by
      have := k.active
      bv_omega
    rw [moved, k.active, ← Nat.mod_add_mod n, Nat.mod_eq_of_lt (show n % lt.toNat + 1 < lt.toNat by omega)]
  · have first : (c.active = 0 ∧ c.longFired = false) ↔ n + 1 = 1 := by
      rw [← Bool.not_eq_true, k.longFired, ← BitVec.toNat_inj, k.active]
      refine ⟨fun ⟨zero, unfired⟩ => ?_, fun one => ?_⟩
      · rw [Nat.mod_eq_of_lt (by omega)] at zero
        exact congrArg Nat.succ zero
      · obtain rfl : n = 0 := by omega
        exact ⟨Nat.zero_mod _, by omega⟩
    rw [if_neg notReached]
    exact if_congr first rfl rfl

theorem HeldFor.succ {lt : Byte} {n : Nat} {c : PressCounter} (k : HeldFor lt n c) (hl : 2 ≤ lt.toNat) :
    HeldFor lt (n + 1) (pressSample lt c) := by
  by_cases top : n % lt.toNat + 1 = lt.toNat
  · exact k.cross hl top
  · exact k.count hl top

theorem execTimes_bSamplePressed_heldFor {b : Button} {s : State} (hl : 2 ≤ (longTicks b s).toNat)
    (start : HeldFor (longTicks b s) 0 (buttonOf b s)) (n : Nat) :
    ∃ t, execTimes n (.bSamplePressed b) s = .next t ∧ longTicks b t = longTicks b s ∧
      HeldFor (longTicks b s) n (buttonOf b t) := by
  induction n with
  | zero => exact ⟨s, rfl, rfl, start⟩
  | succ n ih =>
    obtain ⟨t, run, ticks, k⟩ := ih
    refine ⟨_, (execTimes_succ run).trans (exec_bSamplePressed b t), ?_, ?_⟩
    · rw [longTicks_withButton, ticks]
    · rw [buttonOf_withButton, ticks]
      exact k.succ hl

/-- After one sample or more there is a hold to end: a counter at 0 is one that has crossed the threshold. -/
theorem HeldFor.released {lt : Byte} {n : Nat} {c : PressCounter} (k : HeldFor lt n c) (hn : 1 ≤ n) :
    releaseSample c = { active := 0, longFired := false, bev := .released (decide (lt.toNat ≤ n)) } := by
  have held : c.active ≠ 0 ∨ c.longFired = true := by
    rcases Nat.lt_or_ge n lt.toNat with inside | reached
    · left
      have counted : c.active.toNat = n := k.active.trans (Nat.mod_eq_of_lt inside)
      bv_omega
    · exact .inr (k.longFired.mpr reached)
  have fired : c.longFired = decide (lt.toNat ≤ n) := Bool.eq_iff_iff.mpr (k.longFired.trans decide_eq_true_iff.symm)
  rw [releaseSample_held held, fired]

/-- Settles O29, by induction on the samples of the hold. -/
theorem holdFollowsItsLaw : Obligations.HoldFollowsItsLaw := by
  intro s b n hl ha hf hn
  obtain ⟨t, run, -, k⟩ := execTimes_bSamplePressed_heldFor hl (.zero hl ha hf) n
  refine ⟨t, _, run, exec_bSampleReleased b t, k.active, k.longFired, k.bev (Nat.ne_of_gt hn), ?_⟩
  rw [buttonOf_withButton, k.released hn]

end Sys2Proof.Machine

/-! Proofs of the family 44_host_application: the second interrupt of a running application, the modes of the host beside
the block, and a cycle with the host's inputs in the loop. -/

namespace Sys2Proof.Machine

-- The countdown of the application (R186) --------------------------------------------------------------------------

theorem appStep_second_before_last {a : App} (hp : HostParams) (running : a.phase = .running) (more : 1 < a.remaining) :
    appStep hp .second a = { a with remaining := a.remaining - 1 } := by
  have left : a.remaining - 1 ≠ 0 := by omega
  simp only [appStep, App.onSecond, running, if_neg left]

theorem appStep_second_last {a : App} (hp : HostParams) (running : a.phase = .running) (last : a.remaining = 1) :
    appStep hp .second a = { a with remaining := 0, blink := .twoHz, led := true, phase := .finished } := by
  simp only [appStep, App.onSecond, running, last, Nat.sub_self, if_true]

theorem appStep_second_iterate {a : App} (hp : HostParams) (running : a.phase = .running) {k : Nat}
    (more : k < a.remaining) : (appStep hp .second)^[k] a = { a with remaining := a.remaining - k } := by
  induction k with
  | zero => rfl
  | succ k ih =>
    rw [Function.iterate_succ_apply', ih (by omega)]
    exact appStep_second_before_last hp (a := { a with remaining := a.remaining - k }) running
      (Nat.lt_sub_of_add_lt (by omega))

/-- Settles O59: all seconds but one count down, by induction on their number, and the last one finishes. -/
theorem countdownFinishesOnTheLastSecond : Obligations.CountdownFinishesOnTheLastSecond := by
  intro a hp running some_left
  refine ⟨fun k => appStep_second_iterate hp running, ?_⟩
  obtain ⟨n, hn⟩ : ∃ n, a.remaining = n + 1 := Nat.exists_eq_add_of_le' some_left
  have one_left : a.remaining - n = 1 := by omega
  rw [hn, Function.iterate_succ_apply', appStep_second_iterate hp running (by omega)]
  exact appStep_second_last hp running one_left

-- The modes of the host (R176, R193) -------------------------------------------------------------------------------

theorem HostSide.pd_iff (h : HostSide) : h.pd = true ↔ h.mode = .asleep .powerDown := by
  unfold HostSide.pd
  split <;> simp_all

theorem HostSide.access_of_asleep {h : HostSide} {m : SleepMode} (asleep : h.mode = .asleep m) : h.access = none := by
  simp only [HostSide.access, asleep]

theorem sleepMode_eq_powerDown_iff (pending : Bool) : sleepMode pending = .powerDown ↔ pending = false := by
  cases pending <;> decide

@[simp] theorem HostSide.setStale_mode (u : Update) (b : Bool) (h : HostSide) : (h.setStale u b).mode = h.mode := by
  cases u <;> rfl

@[simp] theorem HostSide.makeTransition_mode (hp : HostParams) (t : Trigger) (h : HostSide) :
    (h.makeTransition hp t).mode = h.mode := rfl

@[simp] theorem HostSide.blinkColon_mode (hp : HostParams) (h : HostSide) : (h.blinkColon hp).mode = h.mode := by
  unfold HostSide.blinkColon
  split
  · split <;> rfl
  · rfl

@[simp] theorem HostSide.refresh_mode (hp : HostParams) (u : Update) (h : HostSide) :
    (h.refresh hp u).mode = h.mode := by
  unfold HostSide.refresh
  split <;> rfl

@[simp] theorem HostSide.submitResult_mode (u : Update) (v : Reg) (h : HostSide) :
    (h.submitResult u v).mode = h.mode := by
  unfold HostSide.submitResult
  split <;> simp only [setStale_mode]

@[simp] theorem HostSide.pollResult_mode (v : Reg) (h : HostSide) : (h.pollResult v).mode = h.mode := by
  unfold HostSide.pollResult
  split <;> simp only [setStale_mode]

/-- No task leaves its handler: only the end of the handler does (R175). -/
theorem HostSide.finishTask_mode (hp : HostParams) (o : HostSees) (t : HostTask) (h : HostSide) :
    (h.finishTask hp o t).mode = h.mode := by
  unfold HostSide.finishTask
  split <;> simp

/-- A host comes to power-down from the coordinator, with no transfer pending, or has been there already (R176). -/
theorem HostSide.powerDown_of_next {hp : HostParams} {o : HostSees} {h : HostSide}
    (down : (h.next hp o).mode = .asleep .powerDown) : o.pending = false ∨ h.mode = .asleep .powerDown := by
  unfold HostSide.next at down
  split at down
  case h_1 => exact .inl ((sleepMode_eq_powerDown_iff _).mp (HostMode.asleep.inj down))
  case h_2 m asleep =>
    split at down
    · exact .inr (asleep.trans down)
    · cases down
  case h_3 => cases down
  case h_4 =>
    rw [HostSide.finishTask_mode] at down
    exact .inr down

-- A cycle with the host in the loop (R6, R240) ---------------------------------------------------------------------

theorem AccessEffect.script {s u : State} {i : Instr} (k : AccessEffect s i u) : u.io.script = s.io.script := by
  cases k
  case submit => split <;> rfl
  all_goals rfl

/-- A cycle without reset takes five steps, and the inputs still to come are left. -/
theorem run_cycle_exists {s : State} {x : Stimulus} {rest : List Stimulus} (hs : s.io.stage = .sample)
    (hx : s.io.script = x :: rest) (hr : x.rst = false) :
    ∃ t, Host.Core.run core 5 s = .next t ∧ t.io.stage = .sample ∧ t.io.script = rest := by
  cases hw : x.access with
  | none => exact ⟨_, run_cycle_quiet hs hx hr hw, after_beforeHost_stage x s, beforeHost_script hx⟩
  | some w =>
    obtain ⟨u, hu, k⟩ := decodeAccess_accessEffect w (beforeHost x s)
    refine ⟨_, run_cycle_access hs hx hr hw hu, ?_, ?_⟩
    · rw [advance_io_stage, k.stage]
      exact after_beforeHost_stage x s
    · rw [advance_io_script, k.script]
      exact beforeHost_script hx

/-- A host in power-down makes no access, and nothing else moves the sequencer (R222). -/
theorem run_cycle_of_powerDown {h : HostSide} {env : Stimulus} {s t : State} {rest : List Stimulus}
    (hs : s.io.stage = .sample) (hx : s.io.script = h.inputs env :: rest) (hr : env.rst = false)
    (down : h.mode = .asleep .powerDown) (run : Host.Core.run core 5 s = .next t) : t.seq = s.seq := by
  have quiet := run_cycle_quiet hs hx hr (HostSide.access_of_asleep down)
  obtain rfl := Host.Outcome.next.inj (run.symm.trans quiet)
  exact (beforeHost_powerDown_busEngine (x := h.inputs env) (h.pd_iff.mpr down) s).1

/-- Settles O60: a cycle in power-down leaves the sequencer alone, and the host enters power-down only where the
coordinator has seen nothing pending. -/
theorem powerDownNeverStarvesATransfer : Obligations.PowerDownNeverStarvesATransfer := by
  intro hp h s env rest hs hx hr none_pending
  obtain ⟨t, run, stage, script⟩ := run_cycle_exists hs hx hr
  have stays : h.mode = .asleep .powerDown → t.seq.pending = false := fun down => by
    rw [run_cycle_of_powerDown hs hx hr down run]
    exact none_pending down
  refine ⟨t, run, stage, script, fun pd => ?_, fun down => ?_, fun handling => ?_⟩
  · have down := h.pd_iff.mp pd
    exact ⟨none_pending down, stays down⟩
  · rcases HostSide.powerDown_of_next down with seen | was_down
    · exact seen
    · exact stays was_down
  · rw [HostSide.pd, handling]

end Sys2Proof.Machine

/-! Proofs of the family 60_exceptions: the rejected command. -/

namespace Sys2Proof.Machine

-- A rejected command (R201) -----------------------------------------------------------------------------------------

theorem exec_cmdSubmit_rejected {s : State} (h : ¬ submitAccepted s = true) :
    exec .cmdSubmit s = .next { s with seq := { s.seq with subAcc := false } } :=
  congrArg Host.Outcome.next (if_neg h)

/-- Settles O20: acceptance needs both no transfer pending and the bus idle, and either reason of the rule denies one. -/
theorem rejectedSubmitOnlyClearsSubAcc : Obligations.RejectedSubmitOnlyClearsSubAcc := by
  intro s reason
  refine exec_cmdSubmit_rejected fun accepted => ?_
  obtain ⟨none_pending, idle⟩ := (submitAccepted_iff s).mp accepted
  rcases reason with pending | not_idle
  · exact Bool.false_ne_true (none_pending.symm.trans pending)
  · exact not_idle idle

end Sys2Proof.Machine
